-- ==== Sys2Proof/Word.lean ====
section
/-! DEFINITION. Word and symbol types of HUFF, and the fixed-size array built from a function of its index. -/

namespace Sys2Proof

/-- A register, a command word or an array element: 32 bits, unsigned (R6, R9). -/
abbrev Word := BitVec 32

/-- A symbol: one byte, 0x00..0xFF (R6). -/
abbrev Sym := BitVec 8

/-- The array whose entry `i` is `f i`. -/
def tabulate {α : Type} (n : Nat) (f : Nat → α) : Vector α n :=
  ⟨((List.range n).map f).toArray, by simp⟩

end Sys2Proof
end

