-- ==== Sys2Proof/Syntax.lean ====
section
/-! DEFINITION. The 23 commands of HUFF (R82), each with the ARG field of its word where its kind has one. -/

namespace Sys2Proof

/-- One constructor per row of the opcode map (R82). A command whose kind is not `none` carries its whole
16-bit ARG (R81): an ARG outside the kind's range still is the command, and completes with RANGE (R84). -/
inductive Instr where
  /-- no operation (R220) -/
  | nop
  /-- soft reset (R221) -/
  | init
  /-- clear the frequency table (R100) -/
  | clrf
  /-- count one symbol (R101) -/
  | cnt (arg : BitVec 16)
  /-- write one count (R102) -/
  | wrf (arg : BitVec 16)
  /-- read one count (R103) -/
  | rdf (arg : BitVec 16)
  /-- build the tree (R122) -/
  | build
  /-- read a node (R127) -/
  | rdn (arg : BitVec 16)
  /-- write a node (R128) -/
  | wrn (arg : BitVec 16)
  /-- set root and node count (R129) -/
  | setroot
  /-- check and accept a loaded tree (R130) -/
  | tchk
  /-- generate the code table (R151) -/
  | genc
  /-- read one code (R154) -/
  | rdc (arg : BitVec 16)
  /-- clear the stream buffer (R171) -/
  | clrb
  /-- set the write pointer (R172) -/
  | setw
  /-- set the read pointer (R173) -/
  | setr
  /-- write one buffer word (R174) -/
  | wrb (arg : BitVec 16)
  /-- read one buffer word (R175) -/
  | rdb (arg : BitVec 16)
  /-- encode one symbol (R190) -/
  | enc (arg : BitVec 16)
  /-- restart the walk (R201) -/
  | drst
  /-- decode one bit (R202) -/
  | dbit (arg : BitVec 16)
  /-- decode one symbol from the stream (R203) -/
  | decs
  /-- check the end of a stream (R204) -/
  | dend
  deriving DecidableEq, Repr

end Sys2Proof
end

