-- ==== Sys2Proof/WellFormed.lean ====
section
/-! DEFINITION. The operand kinds of R81 and which commands have a legal operand. Statements use these; the
meanings check their own operand (Machine/Operands.lean). -/

namespace Sys2Proof

/-- The five operand kinds of ARG (R81). -/
inductive ArgKind where
  /-- no operand: ARG is 0 -/
  | none
  /-- a symbol, 0..255 -/
  | sym
  /-- a node index, 0..510 -/
  | node
  /-- a buffer word index, 0..BUF_WORDS-1 -/
  | word
  /-- a bit, 0..1 -/
  | bit
  deriving DecidableEq, Repr

/-- The legal values of ARG for a kind, in a block with `bufWords` buffer words (R81). -/
def ArgKind.legal (bufWords : Nat) : ArgKind → BitVec 16 → Bool
  | .none, a => a.toNat == 0
  | .sym, a => decide (a.toNat ≤ 255)
  | .node, a => decide (a.toNat ≤ 510)
  | .word, a => decide (a.toNat < bufWords)
  | .bit, a => decide (a.toNat ≤ 1)

/-- The operand kind of each command (R82). -/
def Instr.kind : Instr → ArgKind
  | .nop | .init | .clrf | .build | .setroot | .tchk | .genc | .clrb | .setw | .setr
  | .drst | .decs | .dend => .none
  | .cnt _ | .wrf _ | .rdf _ | .rdc _ | .enc _ => .sym
  | .rdn _ | .wrn _ => .node
  | .wrb _ | .rdb _ => .word
  | .dbit _ => .bit

/-- The ARG field of each command, 0 where the kind is none (R80, R83). -/
def Instr.arg : Instr → BitVec 16
  | .nop | .init | .clrf | .build | .setroot | .tchk | .genc | .clrb | .setw | .setr
  | .drst | .decs | .dend => 0
  | .cnt a | .wrf a | .rdf a | .rdn a | .wrn a | .rdc a | .wrb a | .rdb a | .enc a | .dbit a => a

/-- The command's ARG lies in its operand kind (R81). -/
def Instr.wellFormed (bufWords : Nat) (i : Instr) : Bool :=
  i.kind.legal bufWords i.arg

end Sys2Proof
end

