-- ==== Sys2Proof/Decode.lean ====
section
/-! DEFINITION. The command decoder (R80, R83), total on every 32-bit word, then the encoder (R89), and the
mask and match rows of the opcode map (R82). -/

namespace Sys2Proof

/-- OP, bits 31:24 (R80). -/
def opField (w : Word) : BitVec 8 := w.extractLsb' 24 8

/-- RSV, bits 23:16 (R80). -/
def rsvField (w : Word) : BitVec 8 := w.extractLsb' 16 8

/-- ARG, bits 15:0 (R80). -/
def argField (w : Word) : BitVec 16 := w.extractLsb' 0 16

/-- A command of kind none decodes only with ARG = 0 (R83). -/
def noArg (a : BitVec 16) (i : Instr) : Option Instr :=
  if a = 0 then some i else none

/-- The opcode map (R82): every other OP is reserved (R88). -/
def decodeOp (op : BitVec 8) (a : BitVec 16) : Option Instr :=
  match op.toNat with
  | 0x00 => noArg a .nop
  | 0x01 => noArg a .init
  | 0x10 => noArg a .clrf
  | 0x11 => some (.cnt a)
  | 0x12 => some (.wrf a)
  | 0x13 => some (.rdf a)
  | 0x20 => noArg a .build
  | 0x21 => some (.rdn a)
  | 0x22 => some (.wrn a)
  | 0x23 => noArg a .setroot
  | 0x24 => noArg a .tchk
  | 0x30 => noArg a .genc
  | 0x31 => some (.rdc a)
  | 0x40 => noArg a .clrb
  | 0x41 => noArg a .setw
  | 0x42 => noArg a .setr
  | 0x43 => some (.wrb a)
  | 0x44 => some (.rdb a)
  | 0x50 => some (.enc a)
  | 0x60 => noArg a .drst
  | 0x61 => some (.dbit a)
  | 0x62 => noArg a .decs
  | 0x63 => noArg a .dend
  | _ => none

/-- Decoding a command word (R83): `none` where the word is ILLEGAL. -/
def decode (w : Word) : Option Instr :=
  if rsvField w = 0 then decodeOp (opField w) (argField w) else none

/-- OP of each command (R82). -/
def Instr.opcode : Instr → BitVec 8
  | .nop => 0x00
  | .init => 0x01
  | .clrf => 0x10
  | .cnt _ => 0x11
  | .wrf _ => 0x12
  | .rdf _ => 0x13
  | .build => 0x20
  | .rdn _ => 0x21
  | .wrn _ => 0x22
  | .setroot => 0x23
  | .tchk => 0x24
  | .genc => 0x30
  | .rdc _ => 0x31
  | .clrb => 0x40
  | .setw => 0x41
  | .setr => 0x42
  | .wrb _ => 0x43
  | .rdb _ => 0x44
  | .enc _ => 0x50
  | .drst => 0x60
  | .dbit _ => 0x61
  | .decs => 0x62
  | .dend => 0x63

/-- The word of a command: (OP << 24) | ARG, RSV = 0 (R80, R89). -/
def encode (i : Instr) : Word := i.opcode ++ (0 : BitVec 8) ++ i.arg

/-- The rows of R82 as spec/opcode_table.json gives them: mnemonic, match, mask. -/
def opcodeRows : List (String × Word × Word) :=
  [ ("NOP", 0x00000000, 0xFFFFFFFF), ("INIT", 0x01000000, 0xFFFFFFFF),
    ("CLRF", 0x10000000, 0xFFFFFFFF), ("CNT", 0x11000000, 0xFFFF0000),
    ("WRF", 0x12000000, 0xFFFF0000), ("RDF", 0x13000000, 0xFFFF0000) ] ++
  [ ("BUILD", 0x20000000, 0xFFFFFFFF), ("RDN", 0x21000000, 0xFFFF0000),
    ("WRN", 0x22000000, 0xFFFF0000), ("SETROOT", 0x23000000, 0xFFFFFFFF),
    ("TCHK", 0x24000000, 0xFFFFFFFF), ("GENC", 0x30000000, 0xFFFFFFFF),
    ("RDC", 0x31000000, 0xFFFF0000) ] ++
  [ ("CLRB", 0x40000000, 0xFFFFFFFF), ("SETW", 0x41000000, 0xFFFFFFFF),
    ("SETR", 0x42000000, 0xFFFFFFFF), ("WRB", 0x43000000, 0xFFFF0000),
    ("RDB", 0x44000000, 0xFFFF0000), ("ENC", 0x50000000, 0xFFFF0000) ] ++
  [ ("DRST", 0x60000000, 0xFFFFFFFF), ("DBIT", 0x61000000, 0xFFFF0000),
    ("DECS", 0x62000000, 0xFFFFFFFF), ("DEND", 0x63000000, 0xFFFFFFFF) ]

/-- A row selects a word: (w & mask) = match (R82). -/
def rowSelects (row : String × Word × Word) (w : Word) : Bool :=
  w &&& row.2.2 == row.2.1

/-- The mnemonic of each command (R82). -/
def Instr.mnemonic : Instr → String
  | .nop => "NOP"
  | .init => "INIT"
  | .clrf => "CLRF"
  | .cnt _ => "CNT"
  | .wrf _ => "WRF"
  | .rdf _ => "RDF"
  | .build => "BUILD"
  | .rdn _ => "RDN"
  | .wrn _ => "WRN"
  | .setroot => "SETROOT"
  | .tchk => "TCHK"
  | .genc => "GENC"
  | .rdc _ => "RDC"
  | .clrb => "CLRB"
  | .setw => "SETW"
  | .setr => "SETR"
  | .wrb _ => "WRB"
  | .rdb _ => "RDB"
  | .enc _ => "ENC"
  | .drst => "DRST"
  | .dbit _ => "DBIT"
  | .decs => "DECS"
  | .dend => "DEND"

/-- The instruction the decoder reads from an opcode-table word of `nbits` bits: every bit above them is 0. -/
def decodeTableWord (nbits w : Nat) : Option Instr :=
  decode (BitVec.ofNat 32 (w % 2 ^ nbits))

end Sys2Proof
end

