-- ==== Sys2Proof/Config.lean ====
section
/-! DEFINITION. What is fixed for the block, and the values the spec leaves free. -/

namespace Sys2Proof.Config

/-- What ID always reads: "HUF" and command-set version 1 (R23). -/
def idValue : Word := 0x48554601#32

/-- NODE_CAP: entries of node RAM (R6). -/
abbrev nodeCap : Nat := 511

/-- NSYM: size of the alphabet (R6). -/
abbrev nsym : Nat := 256

/-- MAX_CODE_LEN: the longest code the code table holds (R6). -/
abbrev maxCodeLen : Nat := 64

/-- The reference value of BUF_WORDS (R7): the size of the stream buffer in `State.reset`.
No definition of the machine uses it: BUF_WORDS is the length of BUF (log 5). -/
def refBufWords : Nat := 1024

/-- The unspecified contents of NODE[i] after the hardware reset number `epoch` (R262, log 2). -/
opaque drawNode (epoch i : Nat) : Word

/-- The unspecified contents of NW[i] after the hardware reset number `epoch` (R262, log 2). -/
opaque drawWeight (epoch i : Nat) : Word

/-- The unspecified contents of BUF[w] after the hardware reset number `epoch` (R262, log 2). -/
opaque drawBuf (epoch w : Nat) : Word

/-- The unspecified contents of PEND after the hardware reset number `epoch` (R261, log 3). -/
opaque drawPend (epoch : Nat) : Word

/-- What a walk reads at a node index that node RAM does not have (log 7). -/
opaque absentNode (i : Nat) : Word

/-- What a stream bit beyond the buffer reads as (log 7). -/
opaque absentStreamBit (i : Nat) : Bool

/-- What a code bit above bit 63 of CVAL reads as (log 7). -/
opaque absentCodeBit (j : Nat) : Bool

end Sys2Proof.Config
end

