-- ==== Sys2Proof/Machine/State.lean ====
section
/-! DEFINITION. The whole state of HUFF (10_state.md), the events outside it, and the state after reset. -/

namespace Sys2Proof.Machine

/-- The error codes a command completes with (R230). Codes 11 to 15 are reserved and never produced. -/
inductive ErrCode where
  /-- 0, success -/
  | ok
  /-- 1, the word decodes to no command -/
  | illegal
  /-- 2, an operand out of range -/
  | range
  /-- 3, every frequency is 0 -/
  | empty
  /-- 4, a counter or the total of the counters at its bound -/
  | overflow
  /-- 5, no valid tree -/
  | notree
  /-- 6, no valid code table, or the symbol has no code -/
  | nocode
  /-- 7, the code does not fit in the stream buffer -/
  | buffull
  /-- 8, a 1-bit at a single-leaf root, or a partial code at the end -/
  | decode
  /-- 9, a loaded tree is not well-formed -/
  | treefmt
  /-- 10, a leaf deeper than 64 -/
  | codelen
  deriving DecidableEq, Repr

/-- One entry of the code table (R49): CV, CLEN and CVAL of one symbol. -/
structure CodeEntry where
  cv : Bool
  clen : BitVec 7
  cval : BitVec 64
  deriving DecidableEq, Repr

/-- A cleared entry (R49, R86). -/
def clearedEntry : CodeEntry := { cv := false, clen := 0, cval := 0 }

/-- The registers of the window (R22). Every other multiple of 4 up to 0xFC is a reserved offset (R46). -/
inductive Reg where
  | id | cmd | status | data0 | data1 | data2 | root | nnodes
  | wptr | rptr | dnode | cap | ie | nsym | lastcmd
  deriving DecidableEq, Repr

/-- What the port answers to one bus access (R54): the error response, and for a read the read data. -/
structure BusResponse where
  error : Bool
  rdata : Option Word
  deriving DecidableEq, Repr

/-- One event of the total order of R73, seen at the block's ports (R54): the port carries address bits 7:0,
an access size in bytes, and for a write the data. -/
inductive Event where
  /-- a host read -/
  | read (addr : BitVec 8) (size : Nat)
  /-- a host write -/
  | write (addr : BitVec 8) (size : Nat) (v : Word)
  /-- the engine's turn: a pending command completes -/
  | engine
  /-- `rst_n` driven low and released (R260) -/
  | reset
  deriving DecidableEq, Repr

/-- The state of HUFF (R20), the port's last response, and the model's own two fields `events` and `resets`. -/
structure State where
  /-- STATUS.BUSY (R27) -/
  busy : Bool
  /-- STATUS.DONE (R28) -/
  done : Bool
  /-- STATUS.ERR (R29) -/
  err : Bool
  /-- STATUS.SYMV (R30) -/
  symv : Bool
  /-- STATUS.TV, tree valid (R31) -/
  tv : Bool
  /-- STATUS.CTV, code table valid (R32) -/
  ctv : Bool
  /-- STATUS.LOST (R35) -/
  lost : Bool
  /-- STATUS.ERRCODE (R36) -/
  errcode : ErrCode
  /-- DATA0 (R25) -/
  data0 : Word
  /-- DATA1 (R25) -/
  data1 : Word
  /-- DATA2 (R25) -/
  data2 : Word
  /-- ROOT, bits 8:0 (R37) -/
  root : BitVec 9
  /-- NNODES, bits 9:0 (R38) -/
  nnodes : BitVec 10
  /-- WPTR, bits 21:0 (R39) -/
  wptr : BitVec 22
  /-- RPTR, bits 21:0 (R40) -/
  rptr : BitVec 22
  /-- DNODE, bits 8:0 (R41) -/
  dnode : BitVec 9
  /-- IE, bits 1:0 (R43) -/
  ie : BitVec 2
  /-- LASTCMD (R45) -/
  lastcmd : Word
  /-- PEND, the hidden latch (R51); what it holds while BUSY = 0 is the model's choice (logs 3, 15) -/
  pend : Word
  /-- FREQ[0..255] (R47) -/
  freq : Vector Word 256
  /-- NODE[0..510] (R48) -/
  node : Vector Word 511
  /-- NW[0..510] (R48) -/
  nw : Vector Word 511
  /-- CV, CLEN, CVAL [0..255] (R49) -/
  codes : Vector CodeEntry 256
  /-- BUF[0..BUF_WORDS-1] (R50); its length is BUF_WORDS (log 5) -/
  buf : List Word
  /-- the port's response to the last bus access, none since reset if none (R54, log 4) -/
  resp : Option BusResponse
  /-- MODEL: the events still to come, in the order of R73 (log 1) -/
  events : List Event
  /-- MODEL: how many hardware resets have happened; picks the draw of R262 (log 2) -/
  resets : Nat
  deriving DecidableEq, Repr

/-- HUFF has no fault: a failed command completes with an error code (R231) and an illegal bus access is
answered with the bus error response (R234), both next states. Nothing raises a fault, so there is no constructor. -/
inductive Fault where
  deriving DecidableEq, Repr

/-- Reasons the model itself stops. -/
inductive Refusal where
  /-- raised only by `exec`, in the arm of an instruction that has no meaning yet; no arm is left in that case. Safe. -/
  | notModelled (mnemonic : String)
  deriving DecidableEq, Repr

/-- The state a hardware reset gives (R261), in a block with `bufWords` buffer words; `epoch` picks the draw of
the entries the spec leaves unspecified (R262). -/
def powerOn (bufWords epoch : Nat) : State where
  busy := false
  done := false
  err := false
  symv := false
  tv := false
  ctv := false
  lost := false
  errcode := .ok
  data0 := 0
  data1 := 0
  data2 := 0
  root := 0
  nnodes := 0
  wptr := 0
  rptr := 0
  dnode := 0
  ie := 0
  lastcmd := 0
  pend := Config.drawPend epoch
  freq := tabulate 256 fun _ => 0
  node := tabulate 511 (Config.drawNode epoch)
  nw := tabulate 511 (Config.drawWeight epoch)
  codes := tabulate 256 fun _ => clearedEntry
  buf := (List.range bufWords).map (Config.drawBuf epoch)
  resp := none
  events := []
  resets := epoch

/-- The machine right after reset (R261), with BUF_WORDS at its reference value (R7, log 5). -/
def State.reset : State := powerOn Config.refBufWords 0

end Sys2Proof.Machine
end

