-- ==== Sys2Proof/Machine/Ops.lean ====
section
/-! DEFINITION. The shared operations: reading and writing the internal arrays, clearing the code table,
invalidating the tree, and completing a command, which on an error is HUFF's whole exception entry (R85, R238). -/

namespace Sys2Proof.Machine

/-- BUF_WORDS (R7). -/
def State.bufWords (s : State) : Nat := s.buf.length

/-- CAP_BITS = 32 * BUF_WORDS (R7). -/
def State.capBits (s : State) : Nat := 32 * s.bufWords

/-- BUF has a size the spec allows: BUF_WORDS in 1..65536 (R7). Every other array has its size in its type. -/
def Memory.wf (buf : List Word) : Bool :=
  decide (1 ≤ buf.length) && decide (buf.length ≤ 65536)

/-- The entry of symbol `x` in an array with one entry per symbol (R61). -/
def symEntry {α : Type} (v : Vector α 256) (x : Sym) : α := v[x.toNat]'x.isLt

/-- The array with the entry of symbol `x` replaced (R61). -/
def setSymEntry {α : Type} (v : Vector α 256) (x : Sym) (a : α) : Vector α 256 := v.set x.toNat a x.isLt

/-- NODE[i] or NW[i]; an index node RAM does not have reads a free value (log 7). -/
def nodeEntry (v : Vector Word 511) (i : Nat) : Word :=
  if h : i < 511 then v[i] else Config.absentNode i

/-- Node RAM with entry `i` replaced; an index it does not have writes nothing. -/
def setNodeEntry (v : Vector Word 511) (i : Nat) (w : Word) : Vector Word 511 := v.setIfInBounds i w

/-- The symbols 0x00..0xFF in ascending order. -/
def allSyms : List Sym := (List.range 256).map (BitVec.ofNat 8)

/-- The symbols s with FREQ[s] != 0, in ascending order (R44, R122): each symbol beside its counter, where that is not 0.
(`Laws`: it is `allSyms` filtered by `symEntry freq`.) -/
def presentSyms (freq : Vector Word 256) : List Sym :=
  ((allSyms.zip freq.toList).filter fun p => p.2 != 0).map Prod.fst

/-- `ClearCodeTable()` (R86). -/
def clearCodeTable (s : State) : State :=
  { s with codes := tabulate 256 fun _ => clearedEntry, ctv := false }

/-- `InvalidateTree()` (R87). -/
def invalidateTree (s : State) : State :=
  clearCodeTable { s with tv := false }

/-- What a command's pseudocode comes to on a copy of the committed state (R85): the state with all its writes and
the symbol it emitted, or the error it raised (R11). -/
abbrev Run := Except ErrCode (State × Option Sym)

/-- A run that emits no symbol. -/
def quiet (s : State) : Run := .ok (s, none)

/-- `emit(s)` on successful completion: DATA0 <- zext_32(s) (R11). -/
def deliver (e : Option Sym) (s : State) : State :=
  match e with
  | none => s
  | some x => { s with data0 := x.setWidth 32 }

/-- The completion fields (R85): written whatever the outcome. PEND is not one of them, so it keeps the completed word:
DESIGN CHOICE, since I16 lets PEND hold any value while BUSY = 0 (log 15). -/
def completionFields (c : ErrCode) (emitted : Bool) (s : State) : State :=
  { s with
    errcode := c
    err := s.err || c != .ok
    symv := c == .ok && emitted
    done := true
    busy := false }

/-- Completion (R85): a success commits all writes at once, an error leaves the state the command started from;
then the completion fields are written. This is HUFF's exception entry too: an error saves nothing but its code,
changes no mode and transfers no control (R231, R238). -/
def complete (s0 : State) : Run → State
  | .ok (s1, e) => completionFields .ok e.isSome (deliver e s1)
  | .error c => completionFields c false s0

/-- A command always completes: its outcome is a next state (R231, R279). -/
def finish (s0 : State) (r : Run) : Host.Outcome State Fault Refusal := .next (complete s0 r)

/-- Hardware reset as one event (R260): the reset state, a new draw of the unspecified entries (R262), the same
block parameters; the port has answered nothing yet, and what the outside does next is not the block's to change. -/
def hardwareReset (s : State) : State :=
  { powerOn s.bufWords (s.resets + 1) with events := s.events }

end Sys2Proof.Machine
end

