-- ==== Sys2Proof/Machine/Operands.lean ====
section
/-! DEFINITION. The operand kinds (R81), the fields of a node word (R12, R120), the bits of the stream (R63) and
the bits of a code (R150, R153). -/

namespace Sys2Proof.Machine

/-- Kind SYM: ARG in 0..255 (R81). -/
def symLegal (a : BitVec 16) : Bool := decide (a.toNat ≤ 255)

/-- Symbol s = ARG[7:0] (R81). -/
def symOf (a : BitVec 16) : Sym := a.setWidth 8

/-- Kind NODE: ARG in 0..510 (R81). -/
def nodeLegal (a : BitVec 16) : Bool := decide (a.toNat ≤ 510)

/-- Node index i = ARG[8:0] (R81). -/
def nodeOf (a : BitVec 16) : BitVec 9 := a.setWidth 9

/-- Kind WORD: ARG in 0..BUF_WORDS-1 (R81). -/
def wordLegal (s : State) (a : BitVec 16) : Bool := decide (a.toNat < s.bufWords)

/-- Kind BIT: ARG in 0..1 (R81). -/
def bitLegal (a : BitVec 16) : Bool := decide (a.toNat ≤ 1)

/-- Bit b = ARG[0] (R81). -/
def bitOf (a : BitVec 16) : Bool := a.getLsbD 0

/-- A node word is a leaf when bit 31 is 1 (R12, R120). -/
def isLeafWord (w : Word) : Bool := w.getLsbD 31

/-- SYM of a leaf, bits 7:0 (R12, R120). -/
def symField (w : Word) : Sym := w.extractLsb' 0 8

/-- LEFT of an internal node, bits 8:0 (R12, R120). -/
def leftField (w : Word) : BitVec 9 := w.extractLsb' 0 9

/-- RIGHT of an internal node, bits 24:16 (R12, R120). -/
def rightField (w : Word) : BitVec 9 := w.extractLsb' 16 9

/-- The child a bit chooses: LEFT on 0, RIGHT on 1 (R200). -/
def childField (b : Bool) (w : Word) : BitVec 9 := if b then rightField w else leftField w

/-- The word of a leaf of symbol s: 0x80000000 | s (R120). -/
def leafWord (x : Sym) : Word := 0x80000000#32 ||| x.setWidth 32

/-- The word of an internal node with left child a and right child b: (b << 16) | a (R120). -/
def internalWord (a b : Nat) : Word := (BitVec.ofNat 32 b <<< 16) ||| BitVec.ofNat 32 a

/-- The zero fields of a leaf word, bits 30:8 (R131). -/
def leafZeros (w : Word) : Bool := w.extractLsb' 8 23 == 0

/-- The zero fields of an internal word, bits 30:25 and 15:9 (R131). -/
def internalZeros (w : Word) : Bool := w.extractLsb' 25 6 == 0 && w.extractLsb' 9 7 == 0

/-- StreamBit(i) = BUF[i >> 5][31 - (i & 31)] (R63); a bit the buffer does not have reads a free value (log 7). -/
def streamBit (buf : List Word) (i : Nat) : Bool :=
  match buf[i / 32]? with
  | some w => w.getLsbD (31 - i % 32)
  | none => Config.absentStreamBit i

/-- A word with bit k set to b and every other bit as it was. -/
def setBit (w : Word) (k : Nat) (b : Bool) : Word :=
  if b then w ||| (1#32 <<< k) else w &&& ~~~(1#32 <<< k)

/-- StreamSetBit(i, b): BUF[i >> 5][31 - (i & 31)] <- b, other bits unchanged (R63). -/
def setStreamBit (buf : List Word) (i : Nat) (b : Bool) : List Word :=
  match buf[i / 32]? with
  | some w => buf.set (i / 32) (setBit w (31 - i % 32) b)
  | none => buf

/-- Append `bits` at position `pos`, the first bit first. -/
def writeStreamBits (buf : List Word) (pos : Nat) : List Bool → List Word
  | [] => buf
  | b :: bs => writeStreamBits (setStreamBit buf pos b) (pos + 1) bs

/-- One bit of CVAL; a bit above 63 does not exist and reads a free value (log 7). -/
def cvalBit (e : CodeEntry) (k : Nat) : Bool :=
  if k < 64 then e.cval.getLsbD k else Config.absentCodeBit k

/-- Code(s) as a bit string: bit j is CVAL[s][CLEN[s]-1-j], first bit first (R150, R153). -/
def codeBits (e : CodeEntry) : List Bool :=
  (List.range e.clen.toNat).map fun j => cvalBit e (e.clen.toNat - 1 - j)

end Sys2Proof.Machine
end

