-- ==== Sys2Proof/Machine/Flags.lean ====
section
/-! DEFINITION. STATUS as the host reads it (R26), its live fields, the error numbers (R230), NSYM (R44) and the
interrupt output (R236). -/

namespace Sys2Proof.Machine

/-- The number of an error code, as STATUS.ERRCODE shows it (R230). -/
def errNumber : ErrCode → BitVec 4
  | .ok => 0
  | .illegal => 1
  | .range => 2
  | .empty => 3
  | .overflow => 4
  | .notree => 5
  | .nocode => 6
  | .buffull => 7
  | .decode => 8
  | .treefmt => 9
  | .codelen => 10

/-- STATUS.BEMPTY, live: RPTR = WPTR (R33). -/
def bempty (s : State) : Bool := s.rptr == s.wptr

/-- STATUS.WROOT, live: DNODE = ROOT (R34). -/
def wroot (s : State) : Bool := s.dnode == s.root

/-- NSYM, live: the number of symbols with FREQ != 0 (R44). -/
def nsymCount (freq : Vector Word 256) : Nat := (presentSyms freq).length

/-- The STATUS word (R26): bits 31:20 and 15:9 read 0. -/
def statusWord (s : State) : Word :=
  0#12 ++ errNumber s.errcode ++ 0#7 ++ BitVec.ofBool s.lost ++ BitVec.ofBool (wroot s) ++ BitVec.ofBool (bempty s)
    ++ BitVec.ofBool s.ctv ++ BitVec.ofBool s.tv ++ BitVec.ofBool s.symv ++ BitVec.ofBool s.err
    ++ BitVec.ofBool s.done ++ BitVec.ofBool s.busy

/-- The interrupt output, live (R236). -/
def irq (s : State) : Bool :=
  (s.ie.getLsbD 0 && s.done) || (s.ie.getLsbD 1 && s.err)

end Sys2Proof.Machine
end

