-- ==== Sys2Proof/Machine/Bus.lean ====
section
/-! DEFINITION. The register window: which register an offset names (R22), what a read gives (R71), what a write
does (R66 to R70), and the accesses that get the bus error (R65). -/

namespace Sys2Proof.Machine

/-- The register at an offset (R22); `none` at a reserved offset (R46). -/
def regAt (off : BitVec 8) : Option Reg :=
  match off.toNat with
  | 0x00 => some .id
  | 0x04 => some .cmd
  | 0x08 => some .status
  | 0x0C => some .data0
  | 0x10 => some .data1
  | 0x14 => some .data2
  | 0x18 => some .root
  | 0x1C => some .nnodes
  | 0x20 => some .wptr
  | 0x24 => some .rptr
  | 0x28 => some .dnode
  | 0x2C => some .cap
  | 0x30 => some .ie
  | 0x34 => some .nsym
  | 0x38 => some .lastcmd
  | _ => none

/-- What a register reads (R23, R24, R26, R37 to R45). -/
def readReg : Reg → State → Word
  | .id, _ => Config.idValue
  | .cmd, _ => 0
  | .status, s => statusWord s
  | .data0, s => s.data0
  | .data1, s => s.data1
  | .data2, s => s.data2
  | .root, s => s.root.setWidth 32
  | .nnodes, s => s.nnodes.setWidth 32
  | .wptr, s => s.wptr.setWidth 32
  | .rptr, s => s.rptr.setWidth 32
  | .dnode, s => s.dnode.setWidth 32
  | .cap, s => BitVec.ofNat 32 s.capBits
  | .ie, s => s.ie.setWidth 32
  | .nsym, s => BitVec.ofNat 32 (nsymCount s.freq)
  | .lastcmd, s => s.lastcmd

/-- A dropped write: LOST <- 1, nothing else (R66, R67, R235). -/
def dropWrite (s : State) : State := { s with lost := true }

/-- Acceptance of a command word (R66). -/
def acceptCommand (v : Word) (s : State) : State :=
  { s with pend := v, lastcmd := v, busy := true, done := false }

/-- A write to CMD (R66). -/
def writeCmd (v : Word) (s : State) : State :=
  if s.busy then dropWrite s else acceptCommand v s

/-- A write to STATUS: the write-1-to-clear bits DONE, ERR and LOST (R68). -/
def writeStatus (v : Word) (s : State) : State :=
  { s with
    done := s.done && !v.getLsbD 1
    err := s.err && !v.getLsbD 2
    lost := s.lost && !v.getLsbD 8 }

/-- A legal write to a register (R66 to R70). -/
def writeReg (r : Reg) (v : Word) (s : State) : State :=
  match r with
  | .cmd => writeCmd v s
  | .status => writeStatus v s
  | .data0 => if s.busy then dropWrite s else { s with data0 := v }
  | .data1 => if s.busy then dropWrite s else { s with data1 := v }
  | .data2 => if s.busy then dropWrite s else { s with data2 := v }
  | .ie => { s with ie := v.setWidth 2 }
  | .id | .root | .nnodes | .wptr | .rptr | .dnode | .cap | .nsym | .lastcmd => s

/-- The only legal access: 32 bits wide at a multiple of 4 (R65). -/
def legalAccess (addr : BitVec 8) (size : Nat) : Bool :=
  size == 4 && addr.toNat % 4 == 0

/-- What a legal read at an offset returns: 0 at a reserved offset (R46, R71). -/
def readOffset (off : BitVec 8) (s : State) : Word :=
  match regAt off with
  | some r => readReg r s
  | none => 0

/-- What a legal write at an offset does: nothing at a reserved offset (R46, R70). -/
def writeOffset (off : BitVec 8) (v : Word) (s : State) : State :=
  match regAt off with
  | some r => writeReg r v s
  | none => s

/-- A bus read (R65, R71): no register changes; the port answers the value, or the bus error and 0. -/
def busRead (addr : BitVec 8) (size : Nat) (s : State) : State :=
  if legalAccess addr size then
    { s with resp := some { error := false, rdata := some (readOffset addr s) } }
  else
    { s with resp := some { error := true, rdata := some 0 } }

/-- A bus write (R65 to R70): the register's effect, or the bus error and no effect. -/
def busWrite (addr : BitVec 8) (size : Nat) (v : Word) (s : State) : State :=
  if legalAccess addr size then
    { writeOffset addr v s with resp := some { error := false, rdata := none } }
  else
    { s with resp := some { error := true, rdata := none } }

/-- The port's address bits 7:0 for a host byte address, in a platform whose window starts at `base` (HUFF_BASE,
a multiple of 256): `none` where the address lies outside the window (R8, R60, log 6). -/
def portAddress (base addr : Nat) : Option (BitVec 8) :=
  if base ≤ addr ∧ addr < base + 256 then some (BitVec.ofNat 8 addr) else none

/-- `MemRead(addr, size)` by the host: the event it is at the block's port, none outside the window (R11, R60). -/
def memRead (base addr size : Nat) : Option Event :=
  (portAddress base addr).map fun a => .read a size

/-- `MemWrite(addr, size, v)` by the host: the event it is at the block's port, none outside the window (R11, R60). -/
def memWrite (base addr size : Nat) (v : Word) : Option Event :=
  (portAddress base addr).map fun a => .write a size v

end Sys2Proof.Machine
end

