-- ==== Sys2Proof/Machine/CodeTable.lean ====
section
/-! DEFINITION. The code table generator GENC and RDC (43_code_table.md). -/

namespace Sys2Proof.Machine

/-- The entry of a symbol whose leaf lies at depth d on a path of value v (R151, R153). -/
def codeEntry (d v : Nat) : CodeEntry :=
  { cv := true, clen := BitVec.ofNat 7 d, cval := BitVec.ofNat 64 v }

/-- The traversal of GENC from one node (R151), left subtree first: `left` is 64 - d, the depth still allowed,
`d` the depth and `v` the path's value. An internal node at depth 64 has a child deeper than 64: CODELEN. -/
def walkCodes (node : Vector Word 511) :
    Nat → Nat → Nat → Nat → Vector CodeEntry 256 → Except ErrCode (Vector CodeEntry 256)
  | left, d, i, v, table =>
    if isLeafWord (nodeEntry node i) then
      .ok (setSymEntry table (symField (nodeEntry node i)) (codeEntry d v))
    else
      match left with
      | 0 => .error .codelen
      | left + 1 =>
        match walkCodes node left (d + 1) (leftField (nodeEntry node i)).toNat (2 * v) table with
        | .error c => .error c
        | .ok table' => walkCodes node left (d + 1) (rightField (nodeEntry node i)).toNat (2 * v + 1) table'

/-- The code table of the tree at `root` (R151); a single leaf gets the code "0" (R152). -/
def genCodes (node : Vector Word 511) (root : Nat) : Except ErrCode (Vector CodeEntry 256) :=
  if isLeafWord (nodeEntry node root) then
    .ok (setSymEntry (tabulate 256 fun _ => clearedEntry) (symField (nodeEntry node root)) (codeEntry 1 0))
  else
    walkCodes node Config.maxCodeLen 0 root 0 (tabulate 256 fun _ => clearedEntry)

/-- The pseudocode of GENC (R151). -/
def runGenc (s : State) : Run :=
  if !s.tv then .error .notree
  else
    match genCodes s.node s.root.toNat with
    | .error c => .error c
    | .ok table => quiet { s with codes := table, ctv := true }

/-- GENC (R151). -/
def execGenc (s : State) : Host.Outcome State Fault Refusal :=
  finish s (runGenc s)

/-- The pseudocode of RDC (R154). -/
def runRdc (a : BitVec 16) (s : State) : Run :=
  if !symLegal a then .error .range
  else
    let e := symEntry s.codes (symOf a)
    quiet { s with
      data0 := e.cval.extractLsb' 0 32
      data1 := e.cval.extractLsb' 32 32
      data2 := BitVec.ofBool e.cv ++ 0#24 ++ e.clen }

/-- RDC s (R154). -/
def execRdc (a : BitVec 16) (s : State) : Host.Outcome State Fault Refusal :=
  finish s (runRdc a s)

end Sys2Proof.Machine
end

