-- ==== Sys2Proof/Machine/Decoder.lean ====
section
/-! DEFINITION. The decoder walk and the commands DRST, DBIT, DECS, DEND (46_decoder.md). -/

namespace Sys2Proof.Machine

/-- Step(b) (R200): one bit applied to the walk. -/
def walkStep (b : Bool) (s : State) : Run :=
  let w := nodeEntry s.node s.dnode.toNat
  if isLeafWord w then
    if b then .error .decode else .ok (s, some (symField w))
  else
    let c := childField b w
    let wc := nodeEntry s.node c.toNat
    if isLeafWord wc then .ok ({ s with dnode := s.root }, some (symField wc))
    else quiet { s with dnode := c }

/-- DRST (R201). -/
def execDrst (s : State) : Host.Outcome State Fault Refusal :=
  finish s (quiet { s with dnode := s.root })

/-- The pseudocode of DBIT (R202). -/
def runDbit (a : BitVec 16) (s : State) : Run :=
  if !bitLegal a then .error .range
  else if !s.tv then .error .notree
  else walkStep (bitOf a) s

/-- DBIT b (R202). -/
def execDbit (a : BitVec 16) (s : State) : Host.Outcome State Fault Refusal :=
  finish s (runDbit a s)

/-- The loop of DECS (R203); its first argument is WPTR - RPTR, the bits still in the stream. -/
def decodeLoop : Nat → State → Run
  | 0, s => quiet s
  | more + 1, s =>
    match walkStep (streamBit s.buf s.rptr.toNat) s with
    | .error c => .error c
    | .ok (s', some x) => .ok ({ s' with rptr := s.rptr + 1 }, some x)
    | .ok (s', none) => decodeLoop more { s' with rptr := s.rptr + 1 }

/-- The pseudocode of DECS (R203). -/
def runDecs (s : State) : Run :=
  if !s.tv then .error .notree
  else decodeLoop (s.wptr.toNat - s.rptr.toNat) s

/-- DECS (R203). -/
def execDecs (s : State) : Host.Outcome State Fault Refusal :=
  finish s (runDecs s)

/-- The pseudocode of DEND (R204). -/
def runDend (s : State) : Run :=
  if !s.tv then .error .notree
  else if s.dnode != s.root then .error .decode
  else quiet s

/-- DEND (R204). -/
def execDend (s : State) : Host.Outcome State Fault Refusal :=
  finish s (runDend s)

end Sys2Proof.Machine
end

