-- ==== Sys2Proof/Machine/Encoder.lean ====
section
/-! DEFINITION. The encoder command ENC (45_encoder.md). -/

namespace Sys2Proof.Machine

/-- The pseudocode of ENC (R190): a code is never split. -/
def runEnc (a : BitVec 16) (s : State) : Run :=
  if !symLegal a then .error .range
  else if !s.ctv then .error .nocode
  else
    let e := symEntry s.codes (symOf a)
    if !e.cv then .error .nocode
    else if s.capBits < s.wptr.toNat + e.clen.toNat then .error .buffull
    else quiet { s with
      buf := writeStreamBits s.buf s.wptr.toNat (codeBits e)
      wptr := BitVec.ofNat 22 (s.wptr.toNat + e.clen.toNat) }

/-- ENC s (R190). -/
def execEnc (a : BitVec 16) (s : State) : Host.Outcome State Fault Refusal :=
  finish s (runEnc a s)

end Sys2Proof.Machine
end

