-- ==== Sys2Proof/Machine/Frequency.lean ====
section
/-! DEFINITION. The frequency table commands CLRF, CNT, WRF, RDF (41_frequency.md). -/

namespace Sys2Proof.Machine

/-- FREQ[s] <- 0 for every s. -/
def clearFreq (s : State) : State := { s with freq := tabulate 256 fun _ => 0 }

/-- CLRF (R100). -/
def execClrf (s : State) : Host.Outcome State Fault Refusal :=
  finish s (quiet (clearFreq s))

/-- The pseudocode of CNT (R101): a counter never wraps (R104). -/
def runCnt (a : BitVec 16) (s : State) : Run :=
  if !symLegal a then .error .range
  else if symEntry s.freq (symOf a) == 0xFFFFFFFF#32 then .error .overflow
  else quiet { s with freq := setSymEntry s.freq (symOf a) (symEntry s.freq (symOf a) + 1) }

/-- CNT s (R101). -/
def execCnt (a : BitVec 16) (s : State) : Host.Outcome State Fault Refusal :=
  finish s (runCnt a s)

/-- The pseudocode of WRF (R102). -/
def runWrf (a : BitVec 16) (s : State) : Run :=
  if !symLegal a then .error .range
  else quiet { s with freq := setSymEntry s.freq (symOf a) s.data0 }

/-- WRF s (R102). -/
def execWrf (a : BitVec 16) (s : State) : Host.Outcome State Fault Refusal :=
  finish s (runWrf a s)

/-- The pseudocode of RDF (R103). -/
def runRdf (a : BitVec 16) (s : State) : Run :=
  if !symLegal a then .error .range
  else quiet { s with data0 := symEntry s.freq (symOf a) }

/-- RDF s (R103). -/
def execRdf (a : BitVec 16) (s : State) : Host.Outcome State Fault Refusal :=
  finish s (runRdf a s)

end Sys2Proof.Machine
end

