-- ==== Sys2Proof/Machine/StreamBuffer.lean ====
section
/-! DEFINITION. The stream buffer commands CLRB, SETW, SETR, WRB, RDB (44_stream_buffer.md). -/

namespace Sys2Proof.Machine

/-- CLRB (R171). -/
def execClrb (s : State) : Host.Outcome State Fault Refusal :=
  finish s (quiet { s with buf := List.replicate s.bufWords 0, wptr := 0, rptr := 0 })

/-- The pseudocode of SETW (R172). -/
def runSetw (s : State) : Run :=
  if s.capBits < s.data0.toNat || s.data0.toNat < s.rptr.toNat then .error .range
  else quiet { s with wptr := s.data0.setWidth 22 }

/-- SETW (R172). -/
def execSetw (s : State) : Host.Outcome State Fault Refusal :=
  finish s (runSetw s)

/-- The pseudocode of SETR (R173). -/
def runSetr (s : State) : Run :=
  if s.wptr.toNat < s.data0.toNat then .error .range
  else quiet { s with rptr := s.data0.setWidth 22 }

/-- SETR (R173). -/
def execSetr (s : State) : Host.Outcome State Fault Refusal :=
  finish s (runSetr s)

/-- The pseudocode of WRB (R174). -/
def runWrb (a : BitVec 16) (s : State) : Run :=
  if !wordLegal s a then .error .range
  else quiet { s with buf := s.buf.set a.toNat s.data0 }

/-- WRB w (R174). -/
def execWrb (a : BitVec 16) (s : State) : Host.Outcome State Fault Refusal :=
  finish s (runWrb a s)

/-- The pseudocode of RDB (R175). -/
def runRdb (a : BitVec 16) (s : State) : Run :=
  match s.buf[a.toNat]? with
  | none => .error .range
  | some w => quiet { s with data0 := w }

/-- RDB w (R175). -/
def execRdb (a : BitVec 16) (s : State) : Host.Outcome State Fault Refusal :=
  finish s (runRdb a s)

end Sys2Proof.Machine
end

