-- ==== Sys2Proof/Machine/SystemCommands.lean ====
section
/-! DEFINITION. The system commands NOP and INIT (47_system.md). -/

namespace Sys2Proof.Machine

/-- NOP (R220). -/
def execNop (s : State) : Host.Outcome State Fault Refusal :=
  finish s (quiet s)

/-- INIT, the soft reset (R221): node RAM, BUF, IE, LASTCMD, ERR and LOST stay (R263). -/
def execInit (s : State) : Host.Outcome State Fault Refusal :=
  finish s (quiet { invalidateTree (clearFreq s) with
    root := 0
    nnodes := 0
    dnode := 0
    wptr := 0
    rptr := 0
    data0 := 0
    data1 := 0
    data2 := 0 })

end Sys2Proof.Machine
end

