-- ==== Sys2Proof/Machine/TreeBuilder.lean ====
section
/-! DEFINITION. The tree builder BUILD and the tree storage commands RDN, WRN, SETROOT, TCHK (42_tree_builder.md). -/

namespace Sys2Proof.Machine

/-- A key of the builder's priority queue (R123). -/
structure QueueKey where
  weight : Nat
  index : Nat
  deriving DecidableEq, Repr

/-- The order of the queue: by weight, then by index (R123). -/
def keyBefore (k l : QueueKey) : Bool :=
  decide (k.weight < l.weight) || (k.weight == l.weight && decide (k.index < l.index))

/-- The least of `k` and the keys of a list (R123). -/
def leastKey (k : QueueKey) : List QueueKey → QueueKey
  | [] => k
  | l :: ls => leastKey (if keyBefore l k then l else k) ls

/-- Take the least key out of the queue (R122). -/
def takeLeast : List QueueKey → Option (QueueKey × List QueueKey)
  | [] => none
  | k :: ks => some (leastKey k ks, (k :: ks).erase (leastKey k ks))

/-- What BUILD works on: node RAM, the queue Q and the next free index k (R122). The queue exists only here (R52). -/
structure Builder where
  node : Vector Word 511
  nw : Vector Word 511
  queue : List QueueKey
  next : Nat

/-- NODE[k] <- word; NW[k] <- weight; Q <- Q + (weight, k); k <- k + 1 (R122). -/
def addNode (word : Word) (weight : Nat) (b : Builder) : Builder where
  node := setNodeEntry b.node b.next word
  nw := setNodeEntry b.nw b.next (BitVec.ofNat 32 weight)
  queue := { weight := weight, index := b.next } :: b.queue
  next := b.next + 1

/-- The leaf of one symbol (R122). -/
def addLeaf (freq : Vector Word 256) (b : Builder) (x : Sym) : Builder :=
  addNode (leafWord x) (symEntry freq x).toNat b

/-- The leaves, in ascending order of their symbol (R122, R125). -/
def seedLeaves (freq : Vector Word 256) (b : Builder) : Builder :=
  (presentSyms freq).foldl (addLeaf freq) b

/-- One merge: the first extracted goes left, the second right (R122, R124). -/
def mergeTwo (first second : QueueKey) (rest : List QueueKey) (b : Builder) : Builder :=
  addNode (internalWord first.index second.index) (first.weight + second.weight) { b with queue := rest }

/-- While |Q| >= 2, merge (R122). Each merge shortens the queue by one, so as many turns as it has keys are enough. -/
def mergeAll : Nat → Builder → Builder
  | 0, b => b
  | turns + 1, b =>
    match takeLeast b.queue with
    | none => b
    | some (first, q1) =>
      match takeLeast q1 with
      | none => b
      | some (second, q2) => mergeAll turns (mergeTwo first second q2 b)

/-- The exact sum of all counters (R122). -/
def freqTotal (freq : Vector Word 256) : Nat :=
  (freq.toList.map BitVec.toNat).sum

/-- The loops of BUILD on the node RAM of `s` (R122). -/
def buildTree (s : State) : Builder :=
  mergeAll (nsymCount s.freq) (seedLeaves s.freq { node := s.node, nw := s.nw, queue := [], next := 0 })

/-- The writes BUILD makes once the tree stands in node RAM (R122). -/
def installTree (b : Builder) (s : State) : State :=
  { clearCodeTable s with
    node := b.node
    nw := b.nw
    root := BitVec.ofNat 9 (b.next - 1)
    nnodes := BitVec.ofNat 10 b.next
    tv := true
    dnode := BitVec.ofNat 9 (b.next - 1) }

/-- The pseudocode of BUILD (R122). -/
def runBuild (s : State) : Run :=
  if nsymCount s.freq == 0 then .error .empty
  else if 0xFFFFFFFF < freqTotal s.freq then .error .overflow
  else quiet (installTree (buildTree s) s)

/-- BUILD (R122). -/
def execBuild (s : State) : Host.Outcome State Fault Refusal :=
  finish s (runBuild s)

/-- The pseudocode of RDN (R127). -/
def runRdn (a : BitVec 16) (s : State) : Run :=
  if !nodeLegal a then .error .range
  else quiet { s with data0 := nodeEntry s.node (nodeOf a).toNat, data1 := nodeEntry s.nw (nodeOf a).toNat }

/-- RDN i (R127). -/
def execRdn (a : BitVec 16) (s : State) : Host.Outcome State Fault Refusal :=
  finish s (runRdn a s)

/-- The pseudocode of WRN (R128). -/
def runWrn (a : BitVec 16) (s : State) : Run :=
  if !nodeLegal a then .error .range
  else quiet (invalidateTree { s with
    node := setNodeEntry s.node (nodeOf a).toNat s.data0
    nw := setNodeEntry s.nw (nodeOf a).toNat s.data1 })

/-- WRN i (R128). -/
def execWrn (a : BitVec 16) (s : State) : Host.Outcome State Fault Refusal :=
  finish s (runWrn a s)

/-- The pseudocode of SETROOT (R129): a value out of range is RANGE, never truncated. -/
def runSetroot (s : State) : Run :=
  if 510 < s.data0.toNat || s.data1.toNat == 0 || 511 < s.data1.toNat then .error .range
  else quiet { invalidateTree { s with root := s.data0.setWidth 9, nnodes := s.data1.setWidth 10 } with
    dnode := s.data0.setWidth 9 }

/-- SETROOT (R129). -/
def execSetroot (s : State) : Host.Outcome State Fault Refusal :=
  finish s (runSetroot s)

/-- The loop of WellFormed(r, m) (R131): `stack`, `seen` and `syms` are the rule's. A turn that goes on adds a new
index below m to `seen`, so after m turns a popped index is not below m or was seen: false. -/
def wellFormedLoop (node : Vector Word 511) (m : Nat) : Nat → List Nat → List Nat → List Sym → Bool
  | _, [], seen, _ => seen.length == m
  | 0, _ :: _, _, _ => false
  | turns + 1, i :: stack, seen, syms =>
    if m ≤ i || seen.contains i then false
    else
      let w := nodeEntry node i
      if isLeafWord w then
        if !leafZeros w || syms.contains (symField w) then false
        else wellFormedLoop node m turns stack (i :: seen) (symField w :: syms)
      else
        if !internalZeros w then false
        else wellFormedLoop node m turns ((leftField w).toNat :: (rightField w).toNat :: stack) (i :: seen) syms

/-- WellFormed(r, m) (R131). -/
def wellFormedTree (node : Vector Word 511) (r m : Nat) : Bool :=
  if m < 1 || 511 < m || m ≤ r then false
  else wellFormedLoop node m m [r] [] []

/-- The pseudocode of TCHK (R130). -/
def runTchk (s : State) : Run :=
  if !wellFormedTree s.node s.root.toNat s.nnodes.toNat then .error .treefmt
  else quiet { s with tv := true, dnode := s.root }

/-- TCHK (R130). -/
def execTchk (s : State) : Host.Outcome State Fault Refusal :=
  finish s (runTchk s)

end Sys2Proof.Machine
end

