-- ==== Sys2Proof/Machine/Dispatch.lean ====
section
/-! DEFINITION. The meaning of each command, one arm per constructor. -/

namespace Sys2Proof.Machine

def exec (i : Instr) (s : State) : Host.Outcome State Fault Refusal :=
  match i with
  | .nop => Sys2Proof.Machine.execNop s
  | .init => Sys2Proof.Machine.execInit s
  | .clrf => Sys2Proof.Machine.execClrf s
  | .cnt a => Sys2Proof.Machine.execCnt a s
  | .wrf a => Sys2Proof.Machine.execWrf a s
  | .rdf a => Sys2Proof.Machine.execRdf a s
  | .build => Sys2Proof.Machine.execBuild s
  | .rdn a => Sys2Proof.Machine.execRdn a s
  | .wrn a => Sys2Proof.Machine.execWrn a s
  | .setroot => Sys2Proof.Machine.execSetroot s
  | .tchk => Sys2Proof.Machine.execTchk s
  | .genc => Sys2Proof.Machine.execGenc s
  | .rdc a => Sys2Proof.Machine.execRdc a s
  | .clrb => Sys2Proof.Machine.execClrb s
  | .setw => Sys2Proof.Machine.execSetw s
  | .setr => Sys2Proof.Machine.execSetr s
  | .wrb a => Sys2Proof.Machine.execWrb a s
  | .rdb a => Sys2Proof.Machine.execRdb a s
  | .enc a => Sys2Proof.Machine.execEnc a s
  | .drst => Sys2Proof.Machine.execDrst s
  | .dbit a => Sys2Proof.Machine.execDbit a s
  | .decs => Sys2Proof.Machine.execDecs s
  | .dend => Sys2Proof.Machine.execDend s

end Sys2Proof.Machine
end

