-- ==== Sys2Proof/Machine/Engine.lean ====
section
/-! DEFINITION. The engine (R72, R85) and what each event does to the block (R73). -/

namespace Sys2Proof.Machine

/-- Execute(c) (R85): the command's meaning, or ILLEGAL for a word that decodes to no command (R83). -/
def execute (c : Word) (s : State) : Host.Outcome State Fault Refusal :=
  match decode c with
  | some i => exec i s
  | none => finish s (.error .illegal)

/-- The engine's step (R72): with BUSY = 1 it executes PEND; with BUSY = 0 it is idle (R246). -/
def engine (s : State) : Host.Outcome State Fault Refusal :=
  if s.busy then execute s.pend s else .next s

/-- One event of the total order of R73. -/
def handleEvent : Event → State → Host.Outcome State Fault Refusal
  | .read addr size, s => .next (busRead addr size s)
  | .write addr size v, s => .next (busWrite addr size v s)
  | .engine, s => engine s
  | .reset, s => .next (hardwareReset s)

end Sys2Proof.Machine
end

