-- ==== Sys2Proof/Machine/Step.lean ====
section
/-! DEFINITION. One step of the machine, and the state in which the next step runs a given command word. -/

namespace Sys2Proof.Machine

/-- One step: the next event of the total order of R73; with no event left, the engine, so that a pending command
completes (R279) and an idle block stays as it is (R246, R260). -/
def step (s : State) : Host.Outcome State Fault Refusal :=
  match s.events with
  | [] => engine s
  | e :: rest => handleEvent e { s with events := rest }

/-- `s` with the command word accepted as a CMD write accepts it (R66), whatever BUSY was, and the engine's turn next
(log 9): the very next step executes the word. -/
def State.withFetchWord (s : State) (nbits w : Nat) : State :=
  { acceptCommand (BitVec.ofNat 32 (w % 2 ^ nbits)) s with events := .engine :: s.events }

end Sys2Proof.Machine
end

