-- ==== Sys2Proof/Safety.lean ====
section
/-! DEFINITION. The words the statements are written in: what a completion leaves, paths in the tree, the conditions
of R131, and the invariants of R53. None of it is part of the machine. -/

namespace Sys2Proof.Machine

/-- The completion of a command that succeeds and emits nothing, `s` holding its writes (R85). PEND stays (log 15). -/
def succeeded (s : State) : State :=
  { s with errcode := .ok, symv := false, done := true, busy := false }

/-- The completion of a command that succeeds and emits symbol `x`, `s` holding its other writes (R11, R85). PEND
stays (log 15). -/
def emitted (x : Sym) (s : State) : State :=
  { s with data0 := x.setWidth 32, errcode := .ok, symv := true, done := true, busy := false }

/-- The completion of a command that fails with code `c`, `s` the state it started from (R85, R231). PEND stays
(log 15). -/
def failed (c : ErrCode) (s : State) : State :=
  { s with errcode := c, err := true, symv := false, done := true, busy := false }

/-- The event the next step takes: with no event left it is the engine's turn. -/
def nextEvent (s : State) : Event := s.events.headD .engine

/-- The state the next event meets: its event is taken out of the order. -/
def afterEvent (s : State) : State := { s with events := s.events.tail }

/-- The cleared code table (R86). -/
def clearedTable : Vector CodeEntry 256 := tabulate 256 fun _ => clearedEntry

/-- Node `i` is a leaf (R12). -/
abbrev leafNode (node : Vector Word 511) (i : Nat) : Prop := isLeafWord (nodeEntry node i) = true

/-- The node a path leads to from node `i`, one bit per edge, 0 left and 1 right (R150); a leaf has no edges. -/
def follow (node : Vector Word 511) : Nat → List Bool → Option Nat
  | i, [] => some i
  | i, b :: path =>
    if isLeafWord (nodeEntry node i) then none
    else follow node (childField b (nodeEntry node i)).toNat path

/-- A path as a number, first bit most significant (R153). -/
def pathValue (path : List Bool) : Nat :=
  path.foldl (fun v b => 2 * v + b.toNat) 0

/-- The `n` stream bits from position `pos` on (R170). -/
def streamBits (buf : List Word) (pos n : Nat) : List Bool :=
  (List.range n).map fun j => streamBit buf (pos + j)

/-- The six conditions of WellFormed(r, m) (R131), said of paths instead of the rule's loop. -/
structure TreeConditions (node : Vector Word 511) (r m : Nat) : Prop where
  /-- 1: 1 <= m <= 511 and r < m -/
  bounds : 1 ≤ m ∧ m ≤ 511 ∧ r < m
  /-- 2: every index reached is < m -/
  inside : ∀ p i, follow node r p = some i → i < m
  /-- 3: no node is reached twice -/
  once : ∀ p q i, follow node r p = some i → follow node r q = some i → p = q
  /-- 4: every node 0..m-1 is reached -/
  all : ∀ i, i < m → ∃ p, follow node r p = some i
  /-- 5: the zero fields of every reached word are 0 -/
  zeros : ∀ p i, follow node r p = some i →
    if isLeafWord (nodeEntry node i) then leafZeros (nodeEntry node i) = true
    else internalZeros (nodeEntry node i) = true
  /-- 6: no two reached leaves hold the same symbol -/
  distinct : ∀ p q i j, follow node r p = some i → follow node r q = some j → leafNode node i → leafNode node j →
    symField (nodeEntry node i) = symField (nodeEntry node j) → i = j

/-- RPTR <= WPTR <= CAP_BITS, in a buffer of a legal size (R53 c, R7). -/
def PointersInBounds (s : State) : Prop :=
  Memory.wf s.buf = true ∧ s.rptr.toNat ≤ s.wptr.toNat ∧ s.wptr.toNat ≤ s.capBits

/-- What the code table always is (R49, R53 b, R153): with CTV = 0 cleared; with CTV = 1 the codes of the current tree,
which is valid. -/
def TableIsOfTheTree (s : State) : Prop :=
  if s.ctv = true then s.tv = true ∧ genCodes s.node s.root.toNat = .ok s.codes
  else s.codes = clearedTable

/-- Where the walk stands in a valid tree: at ROOT or at an internal node reachable from it (R41, R53 d). -/
def WalkIsInTheTree (s : State) : Prop :=
  s.dnode = s.root ∨
    (¬ leafNode s.node s.dnode.toNat ∧ ∃ p, follow s.node s.root.toNat p = some s.dnode.toNat)

/-- The invariants of every reachable state (R53), (e) in the form that looks at one state: while BUSY = 1, DONE = 0 and
LASTCMD is the pending word. -/
structure Inv (s : State) : Prop where
  /-- R53 (a) -/
  tree : s.tv = true → wellFormedTree s.node s.root.toNat s.nnodes.toNat = true
  /-- R53 (b), R49 -/
  table : TableIsOfTheTree s
  /-- R53 (c) -/
  pointers : PointersInBounds s
  /-- R53 (d) -/
  walk : s.tv = true → WalkIsInTheTree s
  /-- R53 (e), R66 -/
  pending : s.busy = true → s.done = false ∧ s.pend = s.lastcmd

/-- The commands of a list executed in order, each succeeding; `none` at the first that fails. -/
def runAll : List Instr → State → Option State
  | [], s => some s
  | i :: is, s =>
    match exec i s with
    | .next t => if t.errcode = .ok then runAll is t else none
    | _ => none

/-- `n` DECS in order, each emitting a symbol: the symbols as DATA0 shows them, and the last state. -/
def decodeSymbols : Nat → State → Option (List Word × State)
  | 0, s => some ([], s)
  | n + 1, s =>
    match exec .decs s with
    | .next t =>
      if t.symv = true then (decodeSymbols n t).map fun r => (t.data0 :: r.1, r.2) else none
    | _ => none

end Sys2Proof.Machine
end

