-- ==== Sys2Proof/Certificates/Slice0/Obligations.lean ====
section
/-! DEFINITION. The statements about HUFF, for the provers. Each docstring names the rule it formalises. -/

open Sys2Proof Sys2Proof.Machine

namespace Sys2Proof.Machine

/-- The 23 opcodes of R82. -/
def definedOps : List (BitVec 8) :=
  [0x00, 0x01, 0x10, 0x11, 0x12, 0x13, 0x20, 0x21, 0x22, 0x23, 0x24, 0x30, 0x31,
   0x40, 0x41, 0x42, 0x43, 0x44, 0x50, 0x60, 0x61, 0x62, 0x63]

/-- The opcodes of R82 whose ARG kind is none. -/
def noArgOps : List (BitVec 8) :=
  [0x00, 0x01, 0x10, 0x20, 0x23, 0x24, 0x30, 0x40, 0x41, 0x42, 0x60, 0x62, 0x63]

/-- A word R83 calls ILLEGAL. -/
def IllegalWord (c : Word) : Prop :=
  c.extractLsb' 24 8 ∉ definedOps ∨ c.extractLsb' 16 8 ≠ 0 ∨
    (c.extractLsb' 24 8 ∈ noArgOps ∧ c.extractLsb' 0 16 ≠ 0)

/-- The codes R230 lets each command complete with, ILLEGAL apart, which no decoded command raises. -/
def possibleCodes : Instr → List ErrCode
  | .nop | .init | .clrf | .clrb | .drst => [.ok]
  | .cnt _ => [.ok, .range, .overflow]
  | .wrf _ | .rdf _ | .rdn _ | .wrn _ | .rdc _ | .wrb _ | .rdb _ => [.ok, .range]
  | .setroot | .setw | .setr => [.ok, .range]
  | .build => [.ok, .empty, .overflow]
  | .tchk => [.ok, .treefmt]
  | .genc => [.ok, .notree, .codelen]
  | .enc _ => [.ok, .range, .nocode, .buffull]
  | .dbit _ => [.ok, .range, .notree, .decode]
  | .decs | .dend => [.ok, .notree, .decode]

/-- What each offset of R22 reads (R71); an offset not listed is reserved and reads 0 (R46). -/
def readTable (s : State) : List (Nat × Word) :=
  [(0x00, 0x48554601), (0x04, 0), (0x08, statusWord s), (0x0C, s.data0), (0x10, s.data1), (0x14, s.data2),
   (0x18, s.root.setWidth 32), (0x1C, s.nnodes.setWidth 32), (0x20, s.wptr.setWidth 32),
   (0x24, s.rptr.setWidth 32), (0x28, s.dnode.setWidth 32), (0x2C, BitVec.ofNat 32 (32 * s.buf.length)),
   (0x30, s.ie.setWidth 32), (0x34, BitVec.ofNat 32 (nsymCount s.freq)), (0x38, s.lastcmd)]

/-- The port's answer to a legal write, and to a legal read of `v` (R54); that it stays in the state is log 4. -/
def answered (v : Option Word) : Option BusResponse := some { error := false, rdata := v }

/-- The exact sum of all counters (R122). -/
def exactTotal (freq : Vector Word 256) : Nat :=
  (((List.finRange 256).map fun x => (freq[x.val]).toNat)).sum

/-- The symbols with FREQ != 0, in ascending order (R122, R125). -/
def leafSymbols (freq : Vector Word 256) : List (Fin 256) :=
  (List.finRange 256).filter fun x => freq[x.val] ≠ 0

/-- Node `c` is in the queue when node `k` is made, in a tree with `n` leaves: made before, and no child of an earlier
merge (R122). -/
def InQueue (node : Vector Word 511) (n k c : Nat) : Prop :=
  c < k ∧ ∀ j, n ≤ j → j < k →
    (leftField (nodeEntry node j)).toNat ≠ c ∧ (rightField (nodeEntry node j)).toNat ≠ c

/-- The key of node `i` comes before the key of node `j`: by weight, then by index (R123). -/
def KeyLess (nw : Vector Word 511) (i j : Nat) : Prop :=
  (nodeEntry nw i).toNat < (nodeEntry nw j).toNat ∨ ((nodeEntry nw i).toNat = (nodeEntry nw j).toNat ∧ i < j)

/-- Code(s) of an entry, as R150 reads it out of CLEN and CVAL. -/
def codeString (e : CodeEntry) : List Bool :=
  (List.range e.clen.toNat).map fun j => e.cval.getLsbD (e.clen.toNat - 1 - j)

/-- No code of the table is a prefix of another (R155). -/
def PrefixFree (codes : Vector CodeEntry 256) : Prop :=
  ∀ x y : Fin 256, x ≠ y → codes[x.val].cv = true → codes[y.val].cv = true →
    ¬ (codeString codes[x.val] <+: codeString codes[y.val])

/-- The completion interrupt is pending (R236, R237). -/
def DonePending (s : State) : Prop := s.done = true ∧ s.ie.getLsbD 0 = true

/-- The error interrupt is pending (R236, R237). -/
def ErrPending (s : State) : Prop := s.err = true ∧ s.ie.getLsbD 1 = true

end Sys2Proof.Machine

/-! ## Encoding and decoding -/

/-- R80, R82, R89: the word of a command decodes to it, for every command with every ARG. -/
def Obligations.DecodeOfEncodeIsTheCommand : Prop :=
  ∀ i : Instr, decode (encode i) = some i

/-- R80, R82: a word that decodes is the word of the command it decodes to, so no bit of it is dropped. -/
def Obligations.EncodeOfDecodeIsTheWord : Prop :=
  ∀ (w : Word) (i : Instr), decode w = some i → encode i = w

/-- R82: a word decodes exactly when a row of the opcode table selects it, and to that row's command. -/
def Obligations.WordsDecodeByTheOpcodeTable : Prop :=
  (∀ w : Word, (decode w).isSome = true ↔ ∃ row ∈ opcodeRows, w &&& row.2.2 = row.2.1) ∧
  (∀ (w : Word) (i : Instr), decode w = some i → ∀ row ∈ opcodeRows, w &&& row.2.2 = row.2.1 → row.1 = i.mnemonic)

/-- R80 to R83, R88, R89: words written out from the spec decode as it says. -/
def Obligations.WordsOfTheSpecDecode : Prop :=
  decode 0x00000000 = some .nop ∧ decode 0x00000001 = none ∧ decode 0x11010061 = none ∧ decode 0x02000000 = none ∧
  decode 0x11000061 = some (.cnt 0x61) ∧ decode 0x21000008 = some (.rdn 8) ∧ decode 0x23000000 = some .setroot ∧
  decode 0x30000000 = some .genc ∧ decode 0x430003FF = some (.wrb 1023) ∧ decode 0x50000062 = some (.enc 0x62) ∧
  decode 0x61000001 = some (.dbit 1) ∧ decode 0x63000000 = some .dend

/-! ## The step -/

/-- R72, R85, R246: while BUSY = 1 the engine's turn executes the command that PEND decodes to; around it the step only
takes the event out of the order. With BUSY = 0 the engine's turn does nothing. With no event left it is the engine's
turn (log 1). -/
def Obligations.StepRunsThePendingCommand : Prop :=
  (∀ (s : State) (i : Instr), s.busy = true → decode s.pend = some i →
    (s.events = [] → step s = exec i s) ∧
    (∀ rest, s.events = .engine :: rest → step s = exec i { s with events := rest })) ∧
  (∀ s : State, s.busy = false → nextEvent s = .engine → step s = .next (afterEvent s))

/-- R83: an ILLEGAL word completes with error 1 and no other effect; a word of all zeros is NOP. That PEND keeps the
completed word is the model's choice (log 15). -/
def Obligations.IllegalWordCompletesWithIllegal : Prop :=
  (∀ (s : State) (rest : List Event), s.busy = true → s.events = .engine :: rest → IllegalWord s.pend →
    step s = .next (failed .illegal { s with events := rest })) ∧
  (∀ w : Word, IllegalWord w ↔ decode w = none) ∧
  decode 0x00000000 = some .nop ∧ errNumber .illegal = 1

/-- R260 to R262: a hardware reset is one event that gives the reset state. The model's own choices in it: the count of
resets that picks the new draw of NODE, NW and BUF (log 2), the free value of PEND (log 3), the port's answer cleared
(logs 4, 14), the events to come and BUF_WORDS kept (logs 14, 5). -/
def Obligations.ResetEventGivesTheResetState : Prop :=
  ∀ (s : State) (rest : List Event), s.events = .reset :: rest →
    step s = .next { powerOn s.buf.length (s.resets + 1) with events := rest }

/-- R261: the reset values, whatever BUF_WORDS and the draw; PEND, NODE, NW and BUF are unspecified and have none. That
State.reset is the reset state of a block with 1024 buffer words (log 5) and reset count 0 (log 2) is the model's choice. -/
def Obligations.ResetValues : Prop :=
  State.reset = powerOn 1024 0 ∧
  ∀ n epoch : Nat, ∀ s : State, s = powerOn n epoch →
    readReg .id s = 0x48554601 ∧
    s.busy = false ∧ s.done = false ∧ s.err = false ∧ s.symv = false ∧ s.tv = false ∧ s.ctv = false ∧ s.lost = false ∧
    errNumber s.errcode = 0 ∧ bempty s = true ∧ wroot s = true ∧ statusWord s = 0x000000C0 ∧
    s.data0 = 0 ∧ s.data1 = 0 ∧ s.data2 = 0 ∧ s.root = 0 ∧ s.nnodes = 0 ∧ s.dnode = 0 ∧ s.wptr = 0 ∧ s.rptr = 0 ∧
    readReg .cap s = BitVec.ofNat 32 (32 * n) ∧ s.buf.length = n ∧ s.ie = 0 ∧ readReg .nsym s = 0 ∧ s.lastcmd = 0 ∧
    (∀ x : Fin 256, s.freq[x.val] = 0) ∧
    (∀ x : Fin 256, s.codes[x.val] = { cv := false, clen := 0, cval := 0 }) ∧
    irq s = false

/-! ## The register window -/

/-- R66: a CMD write is accepted when BUSY = 0, and dropped with LOST set when BUSY = 1. -/
def Obligations.CmdWriteIsAcceptedOrDropped : Prop :=
  ∀ (s : State) (v : Word) (rest : List Event), s.events = .write 0x04 4 v :: rest →
    step s = .next (if s.busy = true then { s with lost := true, resp := answered none, events := rest }
      else { s with pend := v, lastcmd := v, busy := true, done := false, resp := answered none, events := rest })

/-- R67: a DATA write reaches its register when BUSY = 0, and is dropped with LOST set when BUSY = 1. -/
def Obligations.DataWriteReachesItsRegisterOrIsDropped : Prop :=
  ∀ (s : State) (v : Word) (rest : List Event),
    (s.busy = true → ∀ off : BitVec 8, off = 0x0C ∨ off = 0x10 ∨ off = 0x14 → s.events = .write off 4 v :: rest →
      step s = .next { s with lost := true, resp := answered none, events := rest }) ∧
    (s.busy = false →
      (s.events = .write 0x0C 4 v :: rest →
        step s = .next { s with data0 := v, resp := answered none, events := rest }) ∧
      (s.events = .write 0x10 4 v :: rest →
        step s = .next { s with data1 := v, resp := answered none, events := rest }) ∧
      (s.events = .write 0x14 4 v :: rest →
        step s = .next { s with data2 := v, resp := answered none, events := rest }))

/-- R68, R69: a STATUS write clears DONE, ERR and LOST where its bit is 1, an IE write sets IE to bits 1:0 of the value;
each changes nothing else, whatever BUSY. -/
def Obligations.StatusAndIeWrites : Prop :=
  ∀ (s : State) (v : Word) (rest : List Event),
    (s.events = .write 0x08 4 v :: rest → step s = .next { s with
      done := if v.getLsbD 1 = true then false else s.done
      err := if v.getLsbD 2 = true then false else s.err
      lost := if v.getLsbD 8 = true then false else s.lost
      resp := answered none
      events := rest }) ∧
    (s.events = .write 0x30 4 v :: rest →
      step s = .next { s with ie := v.extractLsb' 0 2, resp := answered none, events := rest })

/-- R70: a legal write to a read-only register or a reserved offset changes no register and raises no error. -/
def Obligations.OtherWritesAreIgnored : Prop :=
  ∀ (s : State) (off : BitVec 8) (v : Word) (rest : List Event), s.events = .write off 4 v :: rest →
    off.toNat % 4 = 0 → off ∉ [0x04, 0x08, 0x0C, 0x10, 0x14, (0x30 : BitVec 8)] →
    step s = .next { s with resp := answered none, events := rest }

/-- R65: an access of another size or off a multiple of 4 gets the bus error, reads 0, and changes no state. -/
def Obligations.IllegalAccessGetsTheBusError : Prop :=
  ∀ (s : State) (off : BitVec 8) (size : Nat) (v : Word) (rest : List Event), size ≠ 4 ∨ off.toNat % 4 ≠ 0 →
    (s.events = .read off size :: rest →
      step s = .next { s with resp := some { error := true, rdata := some 0 }, events := rest }) ∧
    (s.events = .write off size v :: rest →
      step s = .next { s with resp := some { error := true, rdata := none }, events := rest })

/-- R22, R46, R71: a legal read returns the register at its offset, 0 at a reserved one, and has no side effect. -/
def Obligations.ReadReturnsTheRegisterAtItsOffset : Prop :=
  ∀ (s : State) (off : BitVec 8) (rest : List Event), s.events = .read off 4 :: rest → off.toNat % 4 = 0 →
    step s = .next { s with resp := answered (some (((readTable s).lookup off.toNat).getD 0)), events := rest }

/-- R26: every bit of STATUS, stored, live or reserved. -/
def Obligations.StatusShowsItsFields : Prop :=
  ∀ s : State,
    ((statusWord s).getLsbD 0 = s.busy ∧ (statusWord s).getLsbD 1 = s.done ∧ (statusWord s).getLsbD 2 = s.err ∧
      (statusWord s).getLsbD 3 = s.symv ∧ (statusWord s).getLsbD 4 = s.tv ∧ (statusWord s).getLsbD 5 = s.ctv ∧
      (statusWord s).getLsbD 8 = s.lost) ∧
    ((statusWord s).getLsbD 6 = true ↔ s.rptr = s.wptr) ∧
    ((statusWord s).getLsbD 7 = true ↔ s.dnode = s.root) ∧
    (statusWord s).extractLsb' 16 4 = errNumber s.errcode ∧
    (statusWord s).extractLsb' 9 7 = 0 ∧ (statusWord s).extractLsb' 20 12 = 0

/-- R44: NSYM is the number of symbols with FREQ != 0. -/
def Obligations.NsymCountsTheNonzeroCounters : Prop :=
  ∀ freq : Vector Word 256,
    nsymCount freq = (Finset.univ.filter fun x : Fin 256 => freq[x.val] ≠ 0).card

/-- R236, R237: the interrupt line, and what ends each of the two interrupts: writing 1 to its STATUS bit, clearing its IE
bit, for DONE the acceptance of the next command, and hardware reset. -/
def Obligations.InterruptLineFollowsStatusAndIe : Prop :=
  (∀ s : State, irq s = true ↔ DonePending s ∨ ErrPending s) ∧
  (∀ (s t : State) (v : Word) (rest : List Event), step s = .next t →
    (s.events = .write 0x08 4 v :: rest →
      (v.getLsbD 1 = true → ¬ DonePending t) ∧ (v.getLsbD 2 = true → ¬ ErrPending t)) ∧
    (s.events = .write 0x30 4 v :: rest →
      (v.getLsbD 0 = false → ¬ DonePending t) ∧ (v.getLsbD 1 = false → ¬ ErrPending t)) ∧
    (s.events = .write 0x04 4 v :: rest → s.busy = false → ¬ DonePending t) ∧
    (s.events = .reset :: rest → ¬ DonePending t ∧ ¬ ErrPending t))

/-! ## Rules of the whole machine -/

/-- R27, R28: BUSY is set by the acceptance of a CMD write and cleared by that command's completion (or by hardware
reset), and nothing else writes it; what DONE becomes at each event. -/
def Obligations.BusyAndDoneAreWrittenOnlyAsStated : Prop :=
  ∀ (s t : State) (e : Event) (rest : List Event), s.events = e :: rest → step s = .next t →
    (s.busy = false → (t.busy = true ↔ ∃ v, e = .write 0x04 4 v)) ∧
    (s.busy = true → (t.busy = false ↔ e = .engine ∨ e = .reset)) ∧
    (e = .engine → t.done = (s.done || s.busy)) ∧
    (e = .reset → t.done = false) ∧
    (∀ v, e = .write 0x04 4 v → t.done = (s.done && s.busy)) ∧
    (∀ v, e = .write 0x08 4 v → t.done = (s.done && !v.getLsbD 1)) ∧
    (e ≠ .engine → e ≠ .reset → (∀ v, e ≠ .write 0x04 4 v) → (∀ v, e ≠ .write 0x08 4 v) → t.done = s.done)

/-- R29, R35: ERR is set by every completion with a code other than 0, and LOST exactly by a dropped CMD or DATA write;
each is cleared only by a write of 1 to its STATUS bit or by hardware reset, and so by no command, INIT included. -/
def Obligations.ErrAndLostAreStickyUntilClearedByTheHost : Prop :=
  ∀ (s t : State) (e : Event) (rest : List Event), s.events = e :: rest → step s = .next t →
    (e = .engine → s.busy = true → t.errcode ≠ .ok → t.err = true) ∧
    (s.err = false → t.err = true → e = .engine ∧ s.busy = true ∧ t.errcode ≠ .ok) ∧
    (s.err = true → (t.err = false ↔ (∃ v : Word, e = .write 0x08 4 v ∧ v.getLsbD 2 = true) ∨ e = .reset)) ∧
    (s.lost = false → (t.lost = true ↔ s.busy = true ∧
      ∃ off v, e = .write off 4 v ∧ off ∈ [0x04, 0x0C, 0x10, (0x14 : BitVec 8)])) ∧
    (s.lost = true → (t.lost = false ↔ (∃ v : Word, e = .write 0x08 4 v ∧ v.getLsbD 8 = true) ∨ e = .reset))

/-- R72, R271: while a command is pending, nothing the host does changes what the command will read or what it started
from; only DONE, ERR, LOST and IE can change before the engine's turn. -/
def Obligations.HostCannotDisturbAPendingCommand : Prop :=
  ∀ s t : State, step s = .next t → s.busy = true → nextEvent s ≠ .engine → nextEvent s ≠ .reset →
    t = { s with done := t.done, err := t.err, lost := t.lost, ie := t.ie, resp := t.resp, events := s.events.tail }

/-- R7, R20: BUF_WORDS is a parameter of the block: no step changes the size of the stream buffer. -/
def Obligations.StepKeepsTheBufferSize : Prop :=
  ∀ s t : State, step s = .next t → t.buf.length = s.buf.length

/-- R31, R32: which successful commands set and clear TV and CTV; every other command leaves them. -/
def Obligations.ValidityFlagsAreWrittenOnlyAsStated : Prop :=
  ∀ (i : Instr) (s t : State), exec i s = .next t →
    t.tv = (if t.errcode = .ok ∧ i.mnemonic ∈ ["BUILD", "TCHK"] then true
      else if t.errcode = .ok ∧ i.mnemonic ∈ ["WRN", "SETROOT", "INIT"] then false else s.tv) ∧
    t.ctv = (if t.errcode = .ok ∧ i.mnemonic = "GENC" then true
      else if t.errcode = .ok ∧ i.mnemonic ∈ ["BUILD", "WRN", "SETROOT", "INIT"] then false else s.ctv)

/-- R25: the commands that write DATA0, DATA1 and DATA2; DBIT and DECS write DATA0 only when they emit a symbol. -/
def Obligations.DataRegistersAreWrittenOnlyByTheirCommands : Prop :=
  ∀ (i : Instr) (s t : State), exec i s = .next t →
    (t.data0 ≠ s.data0 → i.mnemonic ∈ ["RDF", "RDN", "RDC", "RDB", "INIT"] ∨
      (i.mnemonic ∈ ["DBIT", "DECS"] ∧ t.symv = true)) ∧
    (t.data1 ≠ s.data1 → i.mnemonic ∈ ["RDN", "RDC", "INIT"]) ∧
    (t.data2 ≠ s.data2 → i.mnemonic ∈ ["RDC", "INIT"])

/-- R37 to R41, R43, R45, R47 to R50, R121: the commands that write each array and pointer; no command writes IE,
LASTCMD, LOST or the port. That none writes PEND is the model's choice (log 15). -/
def Obligations.ArraysAndPointersAreWrittenOnlyByTheirCommands : Prop :=
  ∀ (i : Instr) (s t : State), exec i s = .next t →
    (t.freq ≠ s.freq → i.mnemonic ∈ ["CLRF", "CNT", "WRF", "INIT"]) ∧
    (t.node ≠ s.node ∨ t.nw ≠ s.nw → i.mnemonic ∈ ["BUILD", "WRN"]) ∧
    (t.codes ≠ s.codes → i.mnemonic ∈ ["GENC", "BUILD", "WRN", "SETROOT", "INIT"]) ∧
    (t.buf ≠ s.buf → i.mnemonic ∈ ["ENC", "WRB", "CLRB"]) ∧
    (t.root ≠ s.root ∨ t.nnodes ≠ s.nnodes → i.mnemonic ∈ ["BUILD", "SETROOT", "INIT"]) ∧
    (t.wptr ≠ s.wptr → i.mnemonic ∈ ["ENC", "SETW", "CLRB", "INIT"]) ∧
    (t.rptr ≠ s.rptr → i.mnemonic ∈ ["DECS", "SETR", "CLRB", "INIT"]) ∧
    (t.dnode ≠ s.dnode → i.mnemonic ∈ ["BUILD", "SETROOT", "TCHK", "DRST", "INIT", "DBIT", "DECS"]) ∧
    t.ie = s.ie ∧ t.lastcmd = s.lastcmd ∧ t.lost = s.lost ∧ t.pend = s.pend ∧ t.resp = s.resp ∧
    t.events = s.events ∧ t.resets = s.resets

/-! ## Completion and errors -/

/-- R85, R231: every command completes, and a failed one changes nothing but the completion fields. That PEND stays among
the rest is the model's choice (log 15). -/
def Obligations.EveryCommandCompletesAndAFailureChangesNothingElse : Prop :=
  ∀ (i : Instr) (s : State), ∃ t, exec i s = .next t ∧ t.busy = false ∧ t.done = true ∧
    (t.errcode = .ok → t.err = s.err) ∧
    (t.errcode ≠ .ok → t = { s with
      errcode := t.errcode, err := true, symv := false, done := true, busy := false })

/-- R230: the codes each command can complete with, all below 11. -/
def Obligations.CommandsRaiseOnlyTheirErrors : Prop :=
  ∀ (i : Instr) (s t : State), exec i s = .next t →
    t.errcode ∈ possibleCodes i ∧ (errNumber t.errcode).toNat ≤ 10

/-- R30: SYMV is 1 after a command only if it was a DBIT or DECS that completed with code 0, and then DATA0 holds a
symbol. -/
def Obligations.SymvMeansADecodedSymbol : Prop :=
  ∀ (i : Instr) (s t : State), exec i s = .next t → t.symv = true →
    i.mnemonic ∈ ["DBIT", "DECS"] ∧ t.errcode = .ok ∧ ∃ x : Sym, t.data0 = x.setWidth 32

/-- R81, R84: a command whose ARG lies outside its operand kind completes with RANGE, whatever else is wrong. -/
def Obligations.ArgOutsideItsKindIsRange : Prop :=
  ∀ (i : Instr) (s : State), i.wellFormed s.buf.length = false → exec i s = .next (failed .range s)

/-! ## Frequency table -/

/-- R100: CLRF clears every counter and nothing else. -/
def Obligations.ClrfZeroesEveryCounter : Prop :=
  ∀ s : State, ∃ freq : Vector Word 256, exec .clrf s = .next (succeeded { s with freq := freq }) ∧
    (∀ x : Fin 256, freq[x.val] = 0) ∧ nsymCount freq = 0

/-- R101, R104: CNT adds one to one counter; a counter at its bound fails with OVERFLOW and never wraps. -/
def Obligations.CntCountsOneSymbolAndNeverWraps : Prop :=
  ∀ (s : State) (a : BitVec 16) (h : a.toNat < 256),
    (s.freq[a.toNat] ≠ 0xFFFFFFFF →
      exec (.cnt a) s = .next (succeeded { s with freq := s.freq.set a.toNat (s.freq[a.toNat] + 1) }) ∧
      (s.freq[a.toNat] + 1).toNat = s.freq[a.toNat].toNat + 1) ∧
    (s.freq[a.toNat] = 0xFFFFFFFF → exec (.cnt a) s = .next (failed .overflow s))

/-- R102, R103: WRF writes DATA0 to one counter, RDF reads one counter to DATA0. -/
def Obligations.WrfWritesAndRdfReadsOneCount : Prop :=
  ∀ (s : State) (a : BitVec 16) (h : a.toNat < 256),
    exec (.wrf a) s = .next (succeeded { s with freq := s.freq.set a.toNat s.data0 }) ∧
    exec (.rdf a) s = .next (succeeded { s with data0 := s.freq[a.toNat] })

/-- R105: no frequency command changes the tree, the code table, TV or CTV. -/
def Obligations.FrequencyCommandsLeaveTheTree : Prop :=
  ∀ (i : Instr) (s t : State), i.mnemonic ∈ ["CLRF", "CNT", "WRF", "RDF"] → exec i s = .next t →
    t.node = s.node ∧ t.nw = s.nw ∧ t.root = s.root ∧ t.nnodes = s.nnodes ∧ t.dnode = s.dnode ∧
    t.codes = s.codes ∧ t.tv = s.tv ∧ t.ctv = s.ctv

/-! ## Tree builder -/

/-- R122: BUILD fails with EMPTY when every counter is 0, with OVERFLOW when their exact sum is above 0xFFFFFFFF. -/
def Obligations.BuildRefusesEmptyAndOverflow : Prop :=
  ∀ s : State,
    ((∀ x : Fin 256, s.freq[x.val] = 0) → exec .build s = .next (failed .empty s)) ∧
    (0xFFFFFFFF < exactTotal s.freq → exec .build s = .next (failed .overflow s))

/-- R122 to R125: BUILD succeeds on every other table, and what it leaves: the leaves in ascending symbol order, then one
internal node per merge of the two least keys in the queue, the least left; the rest of node RAM as it was. -/
def Obligations.BuildMergesTheTwoLeastKeys : Prop :=
  ∀ (s : State) (n : Nat), n = (leafSymbols s.freq).length → n ≠ 0 → exactTotal s.freq ≤ 0xFFFFFFFF →
    ∃ node nw : Vector Word 511,
      exec .build s = .next (succeeded { s with
        node := node, nw := nw, root := BitVec.ofNat 9 (2 * n - 2), nnodes := BitVec.ofNat 10 (2 * n - 1),
        dnode := BitVec.ofNat 9 (2 * n - 2), tv := true, ctv := false, codes := clearedTable }) ∧
      (∀ (k : Nat) (x : Fin 256), (leafSymbols s.freq)[k]? = some x →
        nodeEntry node k = 0x80000000#32 ||| BitVec.ofNat 32 x.val ∧ nodeEntry nw k = s.freq[x.val]) ∧
      (∀ k, n ≤ k → k < 2 * n - 1 → ∃ a b, nodeEntry node k = (BitVec.ofNat 32 b <<< 16) ||| BitVec.ofNat 32 a ∧
        InQueue node n k a ∧ InQueue node n k b ∧ KeyLess nw a b ∧
        (∀ c, InQueue node n k c → c ≠ a → c ≠ b → KeyLess nw b c) ∧
        (nodeEntry nw k).toNat = (nodeEntry nw a).toNat + (nodeEntry nw b).toNat) ∧
      (∀ k, 2 * n - 1 ≤ k → k < 511 → nodeEntry node k = nodeEntry s.node k ∧ nodeEntry nw k = nodeEntry s.nw k)

/-- R132: the tree BUILD writes is well-formed, and TCHK after BUILD succeeds. -/
def Obligations.BuiltTreeIsWellFormed : Prop :=
  ∀ s t : State, exec .build s = .next t → t.errcode = .ok →
    wellFormedTree t.node t.root.toNat t.nnodes.toNat = true ∧ ∃ u, exec .tchk t = .next u ∧ u.errcode = .ok

/-- R133: BUILD is a function of FREQ alone: equal counters give the same code, root, node count and tree. -/
def Obligations.BuildDependsOnFreqAlone : Prop :=
  ∀ s s' t t' : State, s.freq = s'.freq → exec .build s = .next t → exec .build s' = .next t' →
    t.errcode = t'.errcode ∧
    (t.errcode = .ok → t.root = t'.root ∧ t.nnodes = t'.nnodes ∧
      ∀ k, k < t.nnodes.toNat → nodeEntry t.node k = nodeEntry t'.node k ∧ nodeEntry t.nw k = nodeEntry t'.nw k)

/-- R127, R128, R86, R87: RDN reads a node word and its weight, whether or not a tree is valid; WRN writes them and
invalidates the tree and the code table. -/
def Obligations.RdnReadsAndWrnWritesANode : Prop :=
  ∀ (s : State) (a : BitVec 16) (h : a.toNat < 511),
    exec (.rdn a) s = .next (succeeded { s with data0 := s.node[a.toNat], data1 := s.nw[a.toNat] }) ∧
    exec (.wrn a) s = .next (succeeded { s with
      node := s.node.set a.toNat s.data0, nw := s.nw.set a.toNat s.data1,
      tv := false, ctv := false, codes := clearedTable })

/-- R129: SETROOT sets root, node count and walk, and invalidates the tree; out of range it is RANGE, never truncated. -/
def Obligations.SetrootSetsRootAndCount : Prop :=
  ∀ s : State,
    (s.data0.toNat ≤ 510 → s.data1 ≠ 0 → s.data1.toNat ≤ 511 →
      ∃ t, exec .setroot s = .next (succeeded t) ∧ t.root.toNat = s.data0.toNat ∧ t.nnodes.toNat = s.data1.toNat ∧
        t.dnode = t.root ∧
        t = { s with root := t.root, nnodes := t.nnodes, dnode := t.dnode, tv := false, ctv := false, codes := clearedTable }) ∧
    (510 < s.data0.toNat ∨ s.data1 = 0 ∨ 511 < s.data1.toNat → exec .setroot s = .next (failed .range s))

/-- R131: the rule's loop answers true exactly when the six conditions hold. -/
def Obligations.WellFormedLoopDecidesTheConditions : Prop :=
  ∀ (node : Vector Word 511) (r m : Nat), wellFormedTree node r m = true ↔ TreeConditions node r m

/-- R130: TCHK accepts exactly the well-formed trees, and then sets TV and the walk; the code table stays. -/
def Obligations.TchkAcceptsExactlyWellFormedTrees : Prop :=
  ∀ s : State,
    (wellFormedTree s.node s.root.toNat s.nnodes.toNat = true →
      exec .tchk s = .next (succeeded { s with tv := true, dnode := s.root })) ∧
    (wellFormedTree s.node s.root.toNat s.nnodes.toNat = false → exec .tchk s = .next (failed .treefmt s))

/-! ## Code table -/

/-- R150 to R153: GENC gives every leaf's symbol the path to its leaf, and no other symbol a code; a single leaf gets
the code "0". -/
def Obligations.GencGivesEveryLeafItsPath : Prop :=
  ∀ s : State, s.tv = true → wellFormedTree s.node s.root.toNat s.nnodes.toNat = true →
    (¬ leafNode s.node s.root.toNat →
      (∀ p i, follow s.node s.root.toNat p = some i → leafNode s.node i → p.length ≤ 64) →
      ∃ table : Vector CodeEntry 256, exec .genc s = .next (succeeded { s with codes := table, ctv := true }) ∧
        (∀ p i, follow s.node s.root.toNat p = some i → leafNode s.node i →
          table[(symField (nodeEntry s.node i)).toNat]'(symField (nodeEntry s.node i)).isLt =
            { cv := true, clen := BitVec.ofNat 7 p.length, cval := BitVec.ofNat 64 (pathValue p) }) ∧
        (∀ x : Fin 256, (∀ p i, follow s.node s.root.toNat p = some i → leafNode s.node i →
          (symField (nodeEntry s.node i)).toNat ≠ x.val) → table[x.val] = { cv := false, clen := 0, cval := 0 })) ∧
    (leafNode s.node s.root.toNat →
      exec .genc s = .next (succeeded { s with
        ctv := true
        codes := clearedTable.set (symField (nodeEntry s.node s.root.toNat)).toNat
          { cv := true, clen := 1, cval := 0 } (symField (nodeEntry s.node s.root.toNat)).isLt }))

/-- R151: GENC fails with NOTREE without a valid tree, and with CODELEN when a leaf lies deeper than 64. -/
def Obligations.GencRefusesNoTreeAndDeepLeaves : Prop :=
  ∀ s : State,
    (s.tv = false → exec .genc s = .next (failed .notree s)) ∧
    (s.tv = true → (∃ p i, follow s.node s.root.toNat p = some i ∧ leafNode s.node i ∧ 64 < p.length) →
      exec .genc s = .next (failed .codelen s))

/-- R154: RDC reads one code: CVAL in DATA0 and DATA1, CV and CLEN in DATA2. -/
def Obligations.RdcReadsOneCode : Prop :=
  ∀ (s : State) (a : BitVec 16) (h : a.toNat < 256),
    ∃ d2 : Word, exec (.rdc a) s = .next (succeeded { s with
      data0 := s.codes[a.toNat].cval.extractLsb' 0 32, data1 := s.codes[a.toNat].cval.extractLsb' 32 32, data2 := d2 }) ∧
    d2.getLsbD 31 = s.codes[a.toNat].cv ∧ d2.extractLsb' 0 7 = s.codes[a.toNat].clen ∧ d2.extractLsb' 7 24 = 0

/-- R155: after a successful GENC no code is a prefix of another; and so in every state that meets the invariants, with
CTV = 1. -/
def Obligations.CodesArePrefixFree : Prop :=
  (∀ s t : State, Inv s → exec .genc s = .next t → t.errcode = .ok → PrefixFree t.codes) ∧
  (∀ s : State, Inv s → s.ctv = true → PrefixFree s.codes)

/-! ## Stream buffer -/

/-- R171: CLRB zeroes every buffer word and both pointers. -/
def Obligations.ClrbZeroesTheBuffer : Prop :=
  ∀ s : State, ∃ buf : List Word, exec .clrb s = .next (succeeded { s with buf := buf, wptr := 0, rptr := 0 }) ∧
    buf.length = s.buf.length ∧ ∀ w ∈ buf, w = 0

/-- R172, R173: SETW moves the write pointer to any position from RPTR to CAP_BITS, SETR the read pointer to any position
up to WPTR; each refuses any other. -/
def Obligations.SetwAndSetrMoveThePointers : Prop :=
  ∀ s : State, Memory.wf s.buf = true →
    (s.data0.toNat ≤ 32 * s.buf.length → s.rptr.toNat ≤ s.data0.toNat →
      ∃ w : BitVec 22, w.toNat = s.data0.toNat ∧ exec .setw s = .next (succeeded { s with wptr := w })) ∧
    (32 * s.buf.length < s.data0.toNat ∨ s.data0.toNat < s.rptr.toNat → exec .setw s = .next (failed .range s)) ∧
    (s.data0.toNat ≤ s.wptr.toNat →
      ∃ r : BitVec 22, r.toNat = s.data0.toNat ∧ exec .setr s = .next (succeeded { s with rptr := r })) ∧
    (s.wptr.toNat < s.data0.toNat → exec .setr s = .next (failed .range s))

/-- R174, R175: WRB writes and RDB reads one buffer word. -/
def Obligations.WrbAndRdbAccessOneBufferWord : Prop :=
  ∀ (s : State) (a : BitVec 16) (h : a.toNat < s.buf.length),
    exec (.wrb a) s = .next (succeeded { s with buf := s.buf.set a.toNat s.data0 }) ∧
    exec (.rdb a) s = .next (succeeded { s with data0 := s.buf[a.toNat] })

/-! ## Encoder -/

/-- R190: ENC appends the code of one symbol, first bit first, and changes no other bit of the buffer; it fails with NOCODE
without a valid table or a code, and with BUFFULL when the code does not fit. -/
def Obligations.EncAppendsTheCode : Prop :=
  ∀ (s : State) (a : BitVec 16) (h : a.toNat < 256),
    (s.ctv = true → s.codes[a.toNat].cv = true → s.codes[a.toNat].clen.toNat ≤ 64 →
      s.wptr.toNat + s.codes[a.toNat].clen.toNat ≤ 32 * s.buf.length →
      ∃ buf : List Word, exec (.enc a) s = .next (succeeded { s with
        buf := buf, wptr := BitVec.ofNat 22 (s.wptr.toNat + s.codes[a.toNat].clen.toNat) }) ∧
      buf.length = s.buf.length ∧
      (∀ j, j < s.codes[a.toNat].clen.toNat → streamBit buf (s.wptr.toNat + j) =
        s.codes[a.toNat].cval.getLsbD (s.codes[a.toNat].clen.toNat - 1 - j)) ∧
      (∀ i, i < s.wptr.toNat ∨ s.wptr.toNat + s.codes[a.toNat].clen.toNat ≤ i → streamBit buf i = streamBit s.buf i)) ∧
    (s.ctv = false ∨ s.codes[a.toNat].cv = false → exec (.enc a) s = .next (failed .nocode s)) ∧
    (s.ctv = true → s.codes[a.toNat].cv = true →
      32 * s.buf.length < s.wptr.toNat + s.codes[a.toNat].clen.toNat → exec (.enc a) s = .next (failed .buffull s))

/-- R191: the codes of a sequence of symbols, encoded in order, are appended one after the other. -/
def Obligations.EncodedSequenceIsTheCodesInOrder : Prop :=
  ∀ (xs : List Sym) (s t : State), Inv s →
    runAll (xs.map fun x => Instr.enc (x.setWidth 16)) s = some t →
    s.wptr.toNat ≤ t.wptr.toNat ∧
    streamBits t.buf s.wptr.toNat (t.wptr.toNat - s.wptr.toNat) =
      (xs.map fun x => codeString (s.codes[x.toNat]'x.isLt)).flatten ∧
    (∀ i, i < s.wptr.toNat → streamBit t.buf i = streamBit s.buf i)

/-! ## Decoder -/

/-- R201, R204: DRST moves the walk to ROOT, with or without a valid tree; DEND reports a pending partial code and changes
nothing. -/
def Obligations.DrstRestartsAndDendChecksTheWalk : Prop :=
  ∀ s : State,
    exec .drst s = .next (succeeded { s with dnode := s.root }) ∧
    (s.tv = false → exec .dend s = .next (failed .notree s)) ∧
    (s.tv = true → s.dnode ≠ s.root → exec .dend s = .next (failed .decode s)) ∧
    (s.tv = true → s.dnode = s.root → exec .dend s = .next (succeeded s))

/-- R200, R202: DBIT applies one bit to the walk. -/
def Obligations.DbitAppliesOneBit : Prop :=
  ∀ (s : State) (b : Bool) (a : BitVec 16), a = (if b = true then 1 else 0) →
    (s.tv = false → exec (.dbit a) s = .next (failed .notree s)) ∧
    (s.tv = true → leafNode s.node s.dnode.toNat →
      exec (.dbit a) s = .next (if b = true then failed .decode s
        else emitted (symField (nodeEntry s.node s.dnode.toNat)) s)) ∧
    (s.tv = true → ¬ leafNode s.node s.dnode.toNat →
      ∀ c, follow s.node s.dnode.toNat [b] = some c →
        (leafNode s.node c → exec (.dbit a) s = .next (emitted (symField (nodeEntry s.node c)) { s with dnode := s.root })) ∧
        (¬ leafNode s.node c → exec (.dbit a) s = .next (succeeded { s with dnode := BitVec.ofNat 9 c })))

/-- R203: DECS consumes stream bits from RPTR, walking from DNODE, up to the first leaf or the end of the stream. -/
def Obligations.DecsDecodesOneSymbol : Prop :=
  ∀ s : State, s.rptr.toNat ≤ s.wptr.toNat →
    (s.tv = false → exec .decs s = .next (failed .notree s)) ∧
    (s.tv = true → s.rptr = s.wptr → exec .decs s = .next (succeeded s)) ∧
    (s.tv = true → leafNode s.node s.dnode.toNat → s.rptr.toNat < s.wptr.toNat →
      exec .decs s = .next (if streamBit s.buf s.rptr.toNat = true then failed .decode s
        else emitted (symField (nodeEntry s.node s.dnode.toNat)) { s with rptr := s.rptr + 1 })) ∧
    (s.tv = true → ¬ leafNode s.node s.dnode.toNat → ∀ n i, s.rptr.toNat + n ≤ s.wptr.toNat →
      follow s.node s.dnode.toNat (streamBits s.buf s.rptr.toNat n) = some i → leafNode s.node i →
      exec .decs s = .next (emitted (symField (nodeEntry s.node i))
        { s with rptr := BitVec.ofNat 22 (s.rptr.toNat + n), dnode := s.root })) ∧
    (s.tv = true → ∀ i, ¬ leafNode s.node i →
      follow s.node s.dnode.toNat (streamBits s.buf s.rptr.toNat (s.wptr.toNat - s.rptr.toNat)) = some i →
      exec .decs s = .next (succeeded { s with rptr := s.wptr, dnode := BitVec.ofNat 9 i }))

/-- R206, one symbol: a symbol that ENC appends is the symbol the next DECS emits. -/
def Obligations.EncodedSymbolDecodesToItself : Prop :=
  ∀ (s s1 : State) (x : Sym), Inv s → s.ctv = true → s.dnode = s.root → s.rptr = s.wptr →
    exec (.enc (x.setWidth 16)) s = .next s1 → s1.errcode = .ok →
    ∃ s2, exec .decs s1 = .next s2 ∧ s2.errcode = .ok ∧ s2.symv = true ∧ s2.data0 = x.setWidth 32 ∧
      s2.rptr = s2.wptr ∧ s2.dnode = s2.root

/-- R206, from a generated code table on: a sequence of symbols encoded in order decodes to itself, one DECS per symbol,
and DEND then succeeds. -/
def Obligations.EncodedSequenceDecodesToItself : Prop :=
  ∀ (xs : List Sym) (s t : State), Inv s → s.ctv = true → s.dnode = s.root → s.rptr = s.wptr →
    runAll (xs.map fun x => Instr.enc (x.setWidth 16)) s = some t →
    ∃ u, decodeSymbols xs.length t = some (xs.map fun x => x.setWidth 32, u) ∧ u.rptr = u.wptr ∧
      ∃ v, exec .dend u = .next v ∧ v.errcode = .ok

/-- R205, R206: CLRF, CNT of every symbol, BUILD, GENC, CLRB, ENC of every symbol; if each of them succeeds, then after
SETR 0 and DRST one DECS per symbol collects exactly the sequence, the stream is then empty, and DEND succeeds. -/
def Obligations.TextRoundTripsWhenItsEncodingSucceeds : Prop :=
  ∀ (xs : List Sym) (s t : State), Inv s →
    runAll ([.clrf] ++ (xs.map fun x => Instr.cnt (x.setWidth 16)) ++ [.build, .genc, .clrb] ++
      (xs.map fun x => Instr.enc (x.setWidth 16))) s = some t →
    ∃ a u v, runAll [.setr, .drst] { t with data0 := 0 } = some a ∧
      decodeSymbols xs.length a = some (xs.map fun x => x.setWidth 32, u) ∧ u.rptr = u.wptr ∧
      exec .dend u = .next v ∧ v.errcode = .ok

/-! ## System commands -/

/-- R220: NOP changes only the completion fields. -/
def Obligations.NopChangesOnlyTheCompletionFields : Prop :=
  ∀ s : State, exec .nop s = .next (succeeded s)

/-- R221, R263: INIT gives the reset state but for node RAM, BUF, IE, LASTCMD, ERR and LOST, and then completes. That
PEND (log 15), the port's answer (log 4), the events (log 1) and the count of resets (log 2) stay is the model's choice. -/
def Obligations.InitGivesTheResetStateExceptTheKeptParts : Prop :=
  ∀ s : State, exec .init s = .next (succeeded { powerOn s.buf.length s.resets with
    node := s.node, nw := s.nw, buf := s.buf, ie := s.ie, lastcmd := s.lastcmd, err := s.err, lost := s.lost,
    pend := s.pend, resp := s.resp, events := s.events })

/-! ## Invariants -/

/-- R53 (c), R39, R40, R170: every step keeps RPTR <= WPTR <= CAP_BITS, from every state that has it. -/
def Obligations.StepKeepsThePointersInBounds : Prop :=
  ∀ s t : State, PointersInBounds s → step s = .next t → PointersInBounds t

/-- R53: every step keeps the invariants of the reachable states. -/
def Obligations.StepKeepsTheInvariants : Prop :=
  ∀ s t : State, Inv s → step s = .next t → Inv t

/-- R53: the reset state meets the invariants, for every legal BUF_WORDS and every draw. -/
def Obligations.ResetStateMeetsTheInvariants : Prop :=
  ∀ n epoch : Nat, 1 ≤ n → n ≤ 65536 → Inv (powerOn n epoch)
end

