-- ==== Sys2Proof/Laws/Decode.lean ====
section
/-! SUPPORT. The fields of an encoded word (R80, R89). -/

namespace Sys2Proof

/-- The bits of a word made of OP, RSV and ARG (R80). -/
theorem getLsbD_fields (op rsv : BitVec 8) (a : BitVec 16) (j : Nat) :
    BitVec.getLsbD (w := 32) (op ++ rsv ++ a) j =
      if j < 16 then a.getLsbD j else if j < 24 then rsv.getLsbD (j - 16) else op.getLsbD (j - 24) := by
  refine (BitVec.getLsbD_append (x := op ++ rsv) (y := a)).trans ?_
  rw [BitVec.getLsbD_append]
  by_cases h1 : j < 16
  · simp [h1]
  · by_cases h2 : j < 24
    · simp [h1, h2, show j - 16 < 8 by omega]
    · simp [h1, h2, show ¬ j - 16 < 8 by omega, show j - 16 - 8 = j - 24 by omega]

theorem opField_append (op rsv : BitVec 8) (a : BitVec 16) : opField (op ++ rsv ++ a) = op := by
  ext i hi
  rw [opField, BitVec.getElem_extractLsb', getLsbD_fields]
  simp [show ¬ 24 + i < 16 by omega, hi]

theorem rsvField_append (op rsv : BitVec 8) (a : BitVec 16) : rsvField (op ++ rsv ++ a) = rsv := by
  ext i hi
  rw [rsvField, BitVec.getElem_extractLsb', getLsbD_fields]
  simp [show 16 + i < 24 by omega, hi]

theorem argField_append (op rsv : BitVec 8) (a : BitVec 16) : argField (op ++ rsv ++ a) = a := by
  ext i hi
  rw [argField, BitVec.getElem_extractLsb', getLsbD_fields]
  simp [hi]

@[simp] theorem opField_encode (i : Instr) : opField (encode i) = i.opcode := opField_append _ _ _

@[simp] theorem rsvField_encode (i : Instr) : rsvField (encode i) = 0 := rsvField_append _ _ _

@[simp] theorem argField_encode (i : Instr) : argField (encode i) = i.arg := argField_append _ _ _

/-- A word is its three fields (R80). -/
theorem word_eq_fields (w : Word) : w = opField w ++ rsvField w ++ argField w := by
  apply BitVec.eq_of_getLsbD_eq
  intro j hj
  rw [getLsbD_fields, opField, rsvField, argField]
  split
  · simp [*]
  · split
    · simp [show j - 16 < 8 by omega, show 16 + (j - 16) = j by omega]
    · simp [show j - 24 < 8 by omega, show 24 + (j - 24) = j by omega]

end Sys2Proof
end

