-- ==== Sys2Proof/Laws/State.lean ====
section
/-! SUPPORT. One lemma per field per named update of State, each true by rfl. -/

namespace Sys2Proof.Machine

/-! ## `clearCodeTable` (R86) -/

@[simp] theorem clearCodeTable_busy (s : State) : (clearCodeTable s).busy = s.busy := rfl
@[simp] theorem clearCodeTable_done (s : State) : (clearCodeTable s).done = s.done := rfl
@[simp] theorem clearCodeTable_err (s : State) : (clearCodeTable s).err = s.err := rfl
@[simp] theorem clearCodeTable_symv (s : State) : (clearCodeTable s).symv = s.symv := rfl
@[simp] theorem clearCodeTable_tv (s : State) : (clearCodeTable s).tv = s.tv := rfl
@[simp] theorem clearCodeTable_ctv (s : State) : (clearCodeTable s).ctv = false := rfl
@[simp] theorem clearCodeTable_lost (s : State) : (clearCodeTable s).lost = s.lost := rfl
@[simp] theorem clearCodeTable_errcode (s : State) : (clearCodeTable s).errcode = s.errcode := rfl
@[simp] theorem clearCodeTable_data0 (s : State) : (clearCodeTable s).data0 = s.data0 := rfl
@[simp] theorem clearCodeTable_data1 (s : State) : (clearCodeTable s).data1 = s.data1 := rfl
@[simp] theorem clearCodeTable_data2 (s : State) : (clearCodeTable s).data2 = s.data2 := rfl
@[simp] theorem clearCodeTable_root (s : State) : (clearCodeTable s).root = s.root := rfl
@[simp] theorem clearCodeTable_nnodes (s : State) : (clearCodeTable s).nnodes = s.nnodes := rfl
@[simp] theorem clearCodeTable_wptr (s : State) : (clearCodeTable s).wptr = s.wptr := rfl
@[simp] theorem clearCodeTable_rptr (s : State) : (clearCodeTable s).rptr = s.rptr := rfl
@[simp] theorem clearCodeTable_dnode (s : State) : (clearCodeTable s).dnode = s.dnode := rfl
@[simp] theorem clearCodeTable_ie (s : State) : (clearCodeTable s).ie = s.ie := rfl
@[simp] theorem clearCodeTable_lastcmd (s : State) : (clearCodeTable s).lastcmd = s.lastcmd := rfl
@[simp] theorem clearCodeTable_pend (s : State) : (clearCodeTable s).pend = s.pend := rfl
@[simp] theorem clearCodeTable_freq (s : State) : (clearCodeTable s).freq = s.freq := rfl
@[simp] theorem clearCodeTable_node (s : State) : (clearCodeTable s).node = s.node := rfl
@[simp] theorem clearCodeTable_nw (s : State) : (clearCodeTable s).nw = s.nw := rfl
@[simp] theorem clearCodeTable_codes (s : State) : (clearCodeTable s).codes = clearedTable := rfl
@[simp] theorem clearCodeTable_buf (s : State) : (clearCodeTable s).buf = s.buf := rfl
@[simp] theorem clearCodeTable_resp (s : State) : (clearCodeTable s).resp = s.resp := rfl
@[simp] theorem clearCodeTable_events (s : State) : (clearCodeTable s).events = s.events := rfl
@[simp] theorem clearCodeTable_resets (s : State) : (clearCodeTable s).resets = s.resets := rfl

/-! ## `invalidateTree` (R87) -/

@[simp] theorem invalidateTree_busy (s : State) : (invalidateTree s).busy = s.busy := rfl
@[simp] theorem invalidateTree_done (s : State) : (invalidateTree s).done = s.done := rfl
@[simp] theorem invalidateTree_err (s : State) : (invalidateTree s).err = s.err := rfl
@[simp] theorem invalidateTree_symv (s : State) : (invalidateTree s).symv = s.symv := rfl
@[simp] theorem invalidateTree_tv (s : State) : (invalidateTree s).tv = false := rfl
@[simp] theorem invalidateTree_ctv (s : State) : (invalidateTree s).ctv = false := rfl
@[simp] theorem invalidateTree_lost (s : State) : (invalidateTree s).lost = s.lost := rfl
@[simp] theorem invalidateTree_errcode (s : State) : (invalidateTree s).errcode = s.errcode := rfl
@[simp] theorem invalidateTree_data0 (s : State) : (invalidateTree s).data0 = s.data0 := rfl
@[simp] theorem invalidateTree_data1 (s : State) : (invalidateTree s).data1 = s.data1 := rfl
@[simp] theorem invalidateTree_data2 (s : State) : (invalidateTree s).data2 = s.data2 := rfl
@[simp] theorem invalidateTree_root (s : State) : (invalidateTree s).root = s.root := rfl
@[simp] theorem invalidateTree_nnodes (s : State) : (invalidateTree s).nnodes = s.nnodes := rfl
@[simp] theorem invalidateTree_wptr (s : State) : (invalidateTree s).wptr = s.wptr := rfl
@[simp] theorem invalidateTree_rptr (s : State) : (invalidateTree s).rptr = s.rptr := rfl
@[simp] theorem invalidateTree_dnode (s : State) : (invalidateTree s).dnode = s.dnode := rfl
@[simp] theorem invalidateTree_ie (s : State) : (invalidateTree s).ie = s.ie := rfl
@[simp] theorem invalidateTree_lastcmd (s : State) : (invalidateTree s).lastcmd = s.lastcmd := rfl
@[simp] theorem invalidateTree_pend (s : State) : (invalidateTree s).pend = s.pend := rfl
@[simp] theorem invalidateTree_freq (s : State) : (invalidateTree s).freq = s.freq := rfl
@[simp] theorem invalidateTree_node (s : State) : (invalidateTree s).node = s.node := rfl
@[simp] theorem invalidateTree_nw (s : State) : (invalidateTree s).nw = s.nw := rfl
@[simp] theorem invalidateTree_codes (s : State) : (invalidateTree s).codes = clearedTable := rfl
@[simp] theorem invalidateTree_buf (s : State) : (invalidateTree s).buf = s.buf := rfl
@[simp] theorem invalidateTree_resp (s : State) : (invalidateTree s).resp = s.resp := rfl
@[simp] theorem invalidateTree_events (s : State) : (invalidateTree s).events = s.events := rfl
@[simp] theorem invalidateTree_resets (s : State) : (invalidateTree s).resets = s.resets := rfl

/-! ## `clearFreq` (R100) -/

@[simp] theorem clearFreq_busy (s : State) : (clearFreq s).busy = s.busy := rfl
@[simp] theorem clearFreq_done (s : State) : (clearFreq s).done = s.done := rfl
@[simp] theorem clearFreq_err (s : State) : (clearFreq s).err = s.err := rfl
@[simp] theorem clearFreq_symv (s : State) : (clearFreq s).symv = s.symv := rfl
@[simp] theorem clearFreq_tv (s : State) : (clearFreq s).tv = s.tv := rfl
@[simp] theorem clearFreq_ctv (s : State) : (clearFreq s).ctv = s.ctv := rfl
@[simp] theorem clearFreq_lost (s : State) : (clearFreq s).lost = s.lost := rfl
@[simp] theorem clearFreq_errcode (s : State) : (clearFreq s).errcode = s.errcode := rfl
@[simp] theorem clearFreq_data0 (s : State) : (clearFreq s).data0 = s.data0 := rfl
@[simp] theorem clearFreq_data1 (s : State) : (clearFreq s).data1 = s.data1 := rfl
@[simp] theorem clearFreq_data2 (s : State) : (clearFreq s).data2 = s.data2 := rfl
@[simp] theorem clearFreq_root (s : State) : (clearFreq s).root = s.root := rfl
@[simp] theorem clearFreq_nnodes (s : State) : (clearFreq s).nnodes = s.nnodes := rfl
@[simp] theorem clearFreq_wptr (s : State) : (clearFreq s).wptr = s.wptr := rfl
@[simp] theorem clearFreq_rptr (s : State) : (clearFreq s).rptr = s.rptr := rfl
@[simp] theorem clearFreq_dnode (s : State) : (clearFreq s).dnode = s.dnode := rfl
@[simp] theorem clearFreq_ie (s : State) : (clearFreq s).ie = s.ie := rfl
@[simp] theorem clearFreq_lastcmd (s : State) : (clearFreq s).lastcmd = s.lastcmd := rfl
@[simp] theorem clearFreq_pend (s : State) : (clearFreq s).pend = s.pend := rfl
@[simp] theorem clearFreq_freq (s : State) : (clearFreq s).freq = tabulate 256 fun _ => 0 := rfl
@[simp] theorem clearFreq_node (s : State) : (clearFreq s).node = s.node := rfl
@[simp] theorem clearFreq_nw (s : State) : (clearFreq s).nw = s.nw := rfl
@[simp] theorem clearFreq_codes (s : State) : (clearFreq s).codes = s.codes := rfl
@[simp] theorem clearFreq_buf (s : State) : (clearFreq s).buf = s.buf := rfl
@[simp] theorem clearFreq_resp (s : State) : (clearFreq s).resp = s.resp := rfl
@[simp] theorem clearFreq_events (s : State) : (clearFreq s).events = s.events := rfl
@[simp] theorem clearFreq_resets (s : State) : (clearFreq s).resets = s.resets := rfl

/-! ## `completionFields` (R85) -/

@[simp] theorem completionFields_busy (c : ErrCode) (e : Bool) (s : State) : (completionFields c e s).busy = false := rfl
@[simp] theorem completionFields_done (c : ErrCode) (e : Bool) (s : State) : (completionFields c e s).done = true := rfl
@[simp] theorem completionFields_err (c : ErrCode) (e : Bool) (s : State) : (completionFields c e s).err = (s.err || c != .ok) := rfl
@[simp] theorem completionFields_symv (c : ErrCode) (e : Bool) (s : State) : (completionFields c e s).symv = (c == .ok && e) := rfl
@[simp] theorem completionFields_tv (c : ErrCode) (e : Bool) (s : State) : (completionFields c e s).tv = s.tv := rfl
@[simp] theorem completionFields_ctv (c : ErrCode) (e : Bool) (s : State) : (completionFields c e s).ctv = s.ctv := rfl
@[simp] theorem completionFields_lost (c : ErrCode) (e : Bool) (s : State) : (completionFields c e s).lost = s.lost := rfl
@[simp] theorem completionFields_errcode (c : ErrCode) (e : Bool) (s : State) : (completionFields c e s).errcode = c := rfl
@[simp] theorem completionFields_data0 (c : ErrCode) (e : Bool) (s : State) : (completionFields c e s).data0 = s.data0 := rfl
@[simp] theorem completionFields_data1 (c : ErrCode) (e : Bool) (s : State) : (completionFields c e s).data1 = s.data1 := rfl
@[simp] theorem completionFields_data2 (c : ErrCode) (e : Bool) (s : State) : (completionFields c e s).data2 = s.data2 := rfl
@[simp] theorem completionFields_root (c : ErrCode) (e : Bool) (s : State) : (completionFields c e s).root = s.root := rfl
@[simp] theorem completionFields_nnodes (c : ErrCode) (e : Bool) (s : State) : (completionFields c e s).nnodes = s.nnodes := rfl
@[simp] theorem completionFields_wptr (c : ErrCode) (e : Bool) (s : State) : (completionFields c e s).wptr = s.wptr := rfl
@[simp] theorem completionFields_rptr (c : ErrCode) (e : Bool) (s : State) : (completionFields c e s).rptr = s.rptr := rfl
@[simp] theorem completionFields_dnode (c : ErrCode) (e : Bool) (s : State) : (completionFields c e s).dnode = s.dnode := rfl
@[simp] theorem completionFields_ie (c : ErrCode) (e : Bool) (s : State) : (completionFields c e s).ie = s.ie := rfl
@[simp] theorem completionFields_lastcmd (c : ErrCode) (e : Bool) (s : State) : (completionFields c e s).lastcmd = s.lastcmd := rfl
@[simp] theorem completionFields_pend (c : ErrCode) (e : Bool) (s : State) : (completionFields c e s).pend = s.pend := rfl
@[simp] theorem completionFields_freq (c : ErrCode) (e : Bool) (s : State) : (completionFields c e s).freq = s.freq := rfl
@[simp] theorem completionFields_node (c : ErrCode) (e : Bool) (s : State) : (completionFields c e s).node = s.node := rfl
@[simp] theorem completionFields_nw (c : ErrCode) (e : Bool) (s : State) : (completionFields c e s).nw = s.nw := rfl
@[simp] theorem completionFields_codes (c : ErrCode) (e : Bool) (s : State) : (completionFields c e s).codes = s.codes := rfl
@[simp] theorem completionFields_buf (c : ErrCode) (e : Bool) (s : State) : (completionFields c e s).buf = s.buf := rfl
@[simp] theorem completionFields_resp (c : ErrCode) (e : Bool) (s : State) : (completionFields c e s).resp = s.resp := rfl
@[simp] theorem completionFields_events (c : ErrCode) (e : Bool) (s : State) : (completionFields c e s).events = s.events := rfl
@[simp] theorem completionFields_resets (c : ErrCode) (e : Bool) (s : State) : (completionFields c e s).resets = s.resets := rfl

/-! ## `succeeded`, `emitted`, `failed` -/

@[simp] theorem succeeded_busy (s : State) : (succeeded s).busy = false := rfl
@[simp] theorem succeeded_done (s : State) : (succeeded s).done = true := rfl
@[simp] theorem succeeded_err (s : State) : (succeeded s).err = s.err := rfl
@[simp] theorem succeeded_symv (s : State) : (succeeded s).symv = false := rfl
@[simp] theorem succeeded_tv (s : State) : (succeeded s).tv = s.tv := rfl
@[simp] theorem succeeded_ctv (s : State) : (succeeded s).ctv = s.ctv := rfl
@[simp] theorem succeeded_lost (s : State) : (succeeded s).lost = s.lost := rfl
@[simp] theorem succeeded_errcode (s : State) : (succeeded s).errcode = .ok := rfl
@[simp] theorem succeeded_data0 (s : State) : (succeeded s).data0 = s.data0 := rfl
@[simp] theorem succeeded_data1 (s : State) : (succeeded s).data1 = s.data1 := rfl
@[simp] theorem succeeded_data2 (s : State) : (succeeded s).data2 = s.data2 := rfl
@[simp] theorem succeeded_root (s : State) : (succeeded s).root = s.root := rfl
@[simp] theorem succeeded_nnodes (s : State) : (succeeded s).nnodes = s.nnodes := rfl
@[simp] theorem succeeded_wptr (s : State) : (succeeded s).wptr = s.wptr := rfl
@[simp] theorem succeeded_rptr (s : State) : (succeeded s).rptr = s.rptr := rfl
@[simp] theorem succeeded_dnode (s : State) : (succeeded s).dnode = s.dnode := rfl
@[simp] theorem succeeded_ie (s : State) : (succeeded s).ie = s.ie := rfl
@[simp] theorem succeeded_lastcmd (s : State) : (succeeded s).lastcmd = s.lastcmd := rfl
@[simp] theorem succeeded_pend (s : State) : (succeeded s).pend = s.pend := rfl
@[simp] theorem succeeded_freq (s : State) : (succeeded s).freq = s.freq := rfl
@[simp] theorem succeeded_node (s : State) : (succeeded s).node = s.node := rfl
@[simp] theorem succeeded_nw (s : State) : (succeeded s).nw = s.nw := rfl
@[simp] theorem succeeded_codes (s : State) : (succeeded s).codes = s.codes := rfl
@[simp] theorem succeeded_buf (s : State) : (succeeded s).buf = s.buf := rfl
@[simp] theorem succeeded_resp (s : State) : (succeeded s).resp = s.resp := rfl
@[simp] theorem succeeded_events (s : State) : (succeeded s).events = s.events := rfl
@[simp] theorem succeeded_resets (s : State) : (succeeded s).resets = s.resets := rfl
@[simp] theorem emitted_busy (x : Sym) (s : State) : (emitted x s).busy = false := rfl
@[simp] theorem emitted_done (x : Sym) (s : State) : (emitted x s).done = true := rfl
@[simp] theorem emitted_err (x : Sym) (s : State) : (emitted x s).err = s.err := rfl
@[simp] theorem emitted_symv (x : Sym) (s : State) : (emitted x s).symv = true := rfl
@[simp] theorem emitted_tv (x : Sym) (s : State) : (emitted x s).tv = s.tv := rfl
@[simp] theorem emitted_ctv (x : Sym) (s : State) : (emitted x s).ctv = s.ctv := rfl
@[simp] theorem emitted_lost (x : Sym) (s : State) : (emitted x s).lost = s.lost := rfl
@[simp] theorem emitted_errcode (x : Sym) (s : State) : (emitted x s).errcode = .ok := rfl
@[simp] theorem emitted_data0 (x : Sym) (s : State) : (emitted x s).data0 = x.setWidth 32 := rfl
@[simp] theorem emitted_data1 (x : Sym) (s : State) : (emitted x s).data1 = s.data1 := rfl
@[simp] theorem emitted_data2 (x : Sym) (s : State) : (emitted x s).data2 = s.data2 := rfl
@[simp] theorem emitted_root (x : Sym) (s : State) : (emitted x s).root = s.root := rfl
@[simp] theorem emitted_nnodes (x : Sym) (s : State) : (emitted x s).nnodes = s.nnodes := rfl
@[simp] theorem emitted_wptr (x : Sym) (s : State) : (emitted x s).wptr = s.wptr := rfl
@[simp] theorem emitted_rptr (x : Sym) (s : State) : (emitted x s).rptr = s.rptr := rfl
@[simp] theorem emitted_dnode (x : Sym) (s : State) : (emitted x s).dnode = s.dnode := rfl
@[simp] theorem emitted_ie (x : Sym) (s : State) : (emitted x s).ie = s.ie := rfl
@[simp] theorem emitted_lastcmd (x : Sym) (s : State) : (emitted x s).lastcmd = s.lastcmd := rfl
@[simp] theorem emitted_pend (x : Sym) (s : State) : (emitted x s).pend = s.pend := rfl
@[simp] theorem emitted_freq (x : Sym) (s : State) : (emitted x s).freq = s.freq := rfl
@[simp] theorem emitted_node (x : Sym) (s : State) : (emitted x s).node = s.node := rfl
@[simp] theorem emitted_nw (x : Sym) (s : State) : (emitted x s).nw = s.nw := rfl
@[simp] theorem emitted_codes (x : Sym) (s : State) : (emitted x s).codes = s.codes := rfl
@[simp] theorem emitted_buf (x : Sym) (s : State) : (emitted x s).buf = s.buf := rfl
@[simp] theorem emitted_resp (x : Sym) (s : State) : (emitted x s).resp = s.resp := rfl
@[simp] theorem emitted_events (x : Sym) (s : State) : (emitted x s).events = s.events := rfl
@[simp] theorem emitted_resets (x : Sym) (s : State) : (emitted x s).resets = s.resets := rfl
@[simp] theorem failed_busy (c : ErrCode) (s : State) : (failed c s).busy = false := rfl
@[simp] theorem failed_done (c : ErrCode) (s : State) : (failed c s).done = true := rfl
@[simp] theorem failed_err (c : ErrCode) (s : State) : (failed c s).err = true := rfl
@[simp] theorem failed_symv (c : ErrCode) (s : State) : (failed c s).symv = false := rfl
@[simp] theorem failed_tv (c : ErrCode) (s : State) : (failed c s).tv = s.tv := rfl
@[simp] theorem failed_ctv (c : ErrCode) (s : State) : (failed c s).ctv = s.ctv := rfl
@[simp] theorem failed_lost (c : ErrCode) (s : State) : (failed c s).lost = s.lost := rfl
@[simp] theorem failed_errcode (c : ErrCode) (s : State) : (failed c s).errcode = c := rfl
@[simp] theorem failed_data0 (c : ErrCode) (s : State) : (failed c s).data0 = s.data0 := rfl
@[simp] theorem failed_data1 (c : ErrCode) (s : State) : (failed c s).data1 = s.data1 := rfl
@[simp] theorem failed_data2 (c : ErrCode) (s : State) : (failed c s).data2 = s.data2 := rfl
@[simp] theorem failed_root (c : ErrCode) (s : State) : (failed c s).root = s.root := rfl
@[simp] theorem failed_nnodes (c : ErrCode) (s : State) : (failed c s).nnodes = s.nnodes := rfl
@[simp] theorem failed_wptr (c : ErrCode) (s : State) : (failed c s).wptr = s.wptr := rfl
@[simp] theorem failed_rptr (c : ErrCode) (s : State) : (failed c s).rptr = s.rptr := rfl
@[simp] theorem failed_dnode (c : ErrCode) (s : State) : (failed c s).dnode = s.dnode := rfl
@[simp] theorem failed_ie (c : ErrCode) (s : State) : (failed c s).ie = s.ie := rfl
@[simp] theorem failed_lastcmd (c : ErrCode) (s : State) : (failed c s).lastcmd = s.lastcmd := rfl
@[simp] theorem failed_pend (c : ErrCode) (s : State) : (failed c s).pend = s.pend := rfl
@[simp] theorem failed_freq (c : ErrCode) (s : State) : (failed c s).freq = s.freq := rfl
@[simp] theorem failed_node (c : ErrCode) (s : State) : (failed c s).node = s.node := rfl
@[simp] theorem failed_nw (c : ErrCode) (s : State) : (failed c s).nw = s.nw := rfl
@[simp] theorem failed_codes (c : ErrCode) (s : State) : (failed c s).codes = s.codes := rfl
@[simp] theorem failed_buf (c : ErrCode) (s : State) : (failed c s).buf = s.buf := rfl
@[simp] theorem failed_resp (c : ErrCode) (s : State) : (failed c s).resp = s.resp := rfl
@[simp] theorem failed_events (c : ErrCode) (s : State) : (failed c s).events = s.events := rfl
@[simp] theorem failed_resets (c : ErrCode) (s : State) : (failed c s).resets = s.resets := rfl

/-! ## `acceptCommand`, `dropWrite`, `writeStatus` (R66 to R68) -/

@[simp] theorem acceptCommand_busy (v : Word) (s : State) : (acceptCommand v s).busy = true := rfl
@[simp] theorem acceptCommand_done (v : Word) (s : State) : (acceptCommand v s).done = false := rfl
@[simp] theorem acceptCommand_err (v : Word) (s : State) : (acceptCommand v s).err = s.err := rfl
@[simp] theorem acceptCommand_symv (v : Word) (s : State) : (acceptCommand v s).symv = s.symv := rfl
@[simp] theorem acceptCommand_tv (v : Word) (s : State) : (acceptCommand v s).tv = s.tv := rfl
@[simp] theorem acceptCommand_ctv (v : Word) (s : State) : (acceptCommand v s).ctv = s.ctv := rfl
@[simp] theorem acceptCommand_lost (v : Word) (s : State) : (acceptCommand v s).lost = s.lost := rfl
@[simp] theorem acceptCommand_errcode (v : Word) (s : State) : (acceptCommand v s).errcode = s.errcode := rfl
@[simp] theorem acceptCommand_data0 (v : Word) (s : State) : (acceptCommand v s).data0 = s.data0 := rfl
@[simp] theorem acceptCommand_data1 (v : Word) (s : State) : (acceptCommand v s).data1 = s.data1 := rfl
@[simp] theorem acceptCommand_data2 (v : Word) (s : State) : (acceptCommand v s).data2 = s.data2 := rfl
@[simp] theorem acceptCommand_root (v : Word) (s : State) : (acceptCommand v s).root = s.root := rfl
@[simp] theorem acceptCommand_nnodes (v : Word) (s : State) : (acceptCommand v s).nnodes = s.nnodes := rfl
@[simp] theorem acceptCommand_wptr (v : Word) (s : State) : (acceptCommand v s).wptr = s.wptr := rfl
@[simp] theorem acceptCommand_rptr (v : Word) (s : State) : (acceptCommand v s).rptr = s.rptr := rfl
@[simp] theorem acceptCommand_dnode (v : Word) (s : State) : (acceptCommand v s).dnode = s.dnode := rfl
@[simp] theorem acceptCommand_ie (v : Word) (s : State) : (acceptCommand v s).ie = s.ie := rfl
@[simp] theorem acceptCommand_lastcmd (v : Word) (s : State) : (acceptCommand v s).lastcmd = v := rfl
@[simp] theorem acceptCommand_pend (v : Word) (s : State) : (acceptCommand v s).pend = v := rfl
@[simp] theorem acceptCommand_freq (v : Word) (s : State) : (acceptCommand v s).freq = s.freq := rfl
@[simp] theorem acceptCommand_node (v : Word) (s : State) : (acceptCommand v s).node = s.node := rfl
@[simp] theorem acceptCommand_nw (v : Word) (s : State) : (acceptCommand v s).nw = s.nw := rfl
@[simp] theorem acceptCommand_codes (v : Word) (s : State) : (acceptCommand v s).codes = s.codes := rfl
@[simp] theorem acceptCommand_buf (v : Word) (s : State) : (acceptCommand v s).buf = s.buf := rfl
@[simp] theorem acceptCommand_resp (v : Word) (s : State) : (acceptCommand v s).resp = s.resp := rfl
@[simp] theorem acceptCommand_events (v : Word) (s : State) : (acceptCommand v s).events = s.events := rfl
@[simp] theorem acceptCommand_resets (v : Word) (s : State) : (acceptCommand v s).resets = s.resets := rfl
@[simp] theorem dropWrite_busy (s : State) : (dropWrite s).busy = s.busy := rfl
@[simp] theorem dropWrite_done (s : State) : (dropWrite s).done = s.done := rfl
@[simp] theorem dropWrite_err (s : State) : (dropWrite s).err = s.err := rfl
@[simp] theorem dropWrite_symv (s : State) : (dropWrite s).symv = s.symv := rfl
@[simp] theorem dropWrite_tv (s : State) : (dropWrite s).tv = s.tv := rfl
@[simp] theorem dropWrite_ctv (s : State) : (dropWrite s).ctv = s.ctv := rfl
@[simp] theorem dropWrite_lost (s : State) : (dropWrite s).lost = true := rfl
@[simp] theorem dropWrite_errcode (s : State) : (dropWrite s).errcode = s.errcode := rfl
@[simp] theorem dropWrite_data0 (s : State) : (dropWrite s).data0 = s.data0 := rfl
@[simp] theorem dropWrite_data1 (s : State) : (dropWrite s).data1 = s.data1 := rfl
@[simp] theorem dropWrite_data2 (s : State) : (dropWrite s).data2 = s.data2 := rfl
@[simp] theorem dropWrite_root (s : State) : (dropWrite s).root = s.root := rfl
@[simp] theorem dropWrite_nnodes (s : State) : (dropWrite s).nnodes = s.nnodes := rfl
@[simp] theorem dropWrite_wptr (s : State) : (dropWrite s).wptr = s.wptr := rfl
@[simp] theorem dropWrite_rptr (s : State) : (dropWrite s).rptr = s.rptr := rfl
@[simp] theorem dropWrite_dnode (s : State) : (dropWrite s).dnode = s.dnode := rfl
@[simp] theorem dropWrite_ie (s : State) : (dropWrite s).ie = s.ie := rfl
@[simp] theorem dropWrite_lastcmd (s : State) : (dropWrite s).lastcmd = s.lastcmd := rfl
@[simp] theorem dropWrite_pend (s : State) : (dropWrite s).pend = s.pend := rfl
@[simp] theorem dropWrite_freq (s : State) : (dropWrite s).freq = s.freq := rfl
@[simp] theorem dropWrite_node (s : State) : (dropWrite s).node = s.node := rfl
@[simp] theorem dropWrite_nw (s : State) : (dropWrite s).nw = s.nw := rfl
@[simp] theorem dropWrite_codes (s : State) : (dropWrite s).codes = s.codes := rfl
@[simp] theorem dropWrite_buf (s : State) : (dropWrite s).buf = s.buf := rfl
@[simp] theorem dropWrite_resp (s : State) : (dropWrite s).resp = s.resp := rfl
@[simp] theorem dropWrite_events (s : State) : (dropWrite s).events = s.events := rfl
@[simp] theorem dropWrite_resets (s : State) : (dropWrite s).resets = s.resets := rfl
@[simp] theorem writeStatus_busy (v : Word) (s : State) : (writeStatus v s).busy = s.busy := rfl
@[simp] theorem writeStatus_done (v : Word) (s : State) : (writeStatus v s).done = (s.done && !v.getLsbD 1) := rfl
@[simp] theorem writeStatus_err (v : Word) (s : State) : (writeStatus v s).err = (s.err && !v.getLsbD 2) := rfl
@[simp] theorem writeStatus_symv (v : Word) (s : State) : (writeStatus v s).symv = s.symv := rfl
@[simp] theorem writeStatus_tv (v : Word) (s : State) : (writeStatus v s).tv = s.tv := rfl
@[simp] theorem writeStatus_ctv (v : Word) (s : State) : (writeStatus v s).ctv = s.ctv := rfl
@[simp] theorem writeStatus_lost (v : Word) (s : State) : (writeStatus v s).lost = (s.lost && !v.getLsbD 8) := rfl
@[simp] theorem writeStatus_errcode (v : Word) (s : State) : (writeStatus v s).errcode = s.errcode := rfl
@[simp] theorem writeStatus_data0 (v : Word) (s : State) : (writeStatus v s).data0 = s.data0 := rfl
@[simp] theorem writeStatus_data1 (v : Word) (s : State) : (writeStatus v s).data1 = s.data1 := rfl
@[simp] theorem writeStatus_data2 (v : Word) (s : State) : (writeStatus v s).data2 = s.data2 := rfl
@[simp] theorem writeStatus_root (v : Word) (s : State) : (writeStatus v s).root = s.root := rfl
@[simp] theorem writeStatus_nnodes (v : Word) (s : State) : (writeStatus v s).nnodes = s.nnodes := rfl
@[simp] theorem writeStatus_wptr (v : Word) (s : State) : (writeStatus v s).wptr = s.wptr := rfl
@[simp] theorem writeStatus_rptr (v : Word) (s : State) : (writeStatus v s).rptr = s.rptr := rfl
@[simp] theorem writeStatus_dnode (v : Word) (s : State) : (writeStatus v s).dnode = s.dnode := rfl
@[simp] theorem writeStatus_ie (v : Word) (s : State) : (writeStatus v s).ie = s.ie := rfl
@[simp] theorem writeStatus_lastcmd (v : Word) (s : State) : (writeStatus v s).lastcmd = s.lastcmd := rfl
@[simp] theorem writeStatus_pend (v : Word) (s : State) : (writeStatus v s).pend = s.pend := rfl
@[simp] theorem writeStatus_freq (v : Word) (s : State) : (writeStatus v s).freq = s.freq := rfl
@[simp] theorem writeStatus_node (v : Word) (s : State) : (writeStatus v s).node = s.node := rfl
@[simp] theorem writeStatus_nw (v : Word) (s : State) : (writeStatus v s).nw = s.nw := rfl
@[simp] theorem writeStatus_codes (v : Word) (s : State) : (writeStatus v s).codes = s.codes := rfl
@[simp] theorem writeStatus_buf (v : Word) (s : State) : (writeStatus v s).buf = s.buf := rfl
@[simp] theorem writeStatus_resp (v : Word) (s : State) : (writeStatus v s).resp = s.resp := rfl
@[simp] theorem writeStatus_events (v : Word) (s : State) : (writeStatus v s).events = s.events := rfl
@[simp] theorem writeStatus_resets (v : Word) (s : State) : (writeStatus v s).resets = s.resets := rfl

/-! ## `installTree` (R122) -/

@[simp] theorem installTree_busy (b : Builder) (s : State) : (installTree b s).busy = s.busy := rfl
@[simp] theorem installTree_done (b : Builder) (s : State) : (installTree b s).done = s.done := rfl
@[simp] theorem installTree_err (b : Builder) (s : State) : (installTree b s).err = s.err := rfl
@[simp] theorem installTree_symv (b : Builder) (s : State) : (installTree b s).symv = s.symv := rfl
@[simp] theorem installTree_tv (b : Builder) (s : State) : (installTree b s).tv = true := rfl
@[simp] theorem installTree_ctv (b : Builder) (s : State) : (installTree b s).ctv = false := rfl
@[simp] theorem installTree_lost (b : Builder) (s : State) : (installTree b s).lost = s.lost := rfl
@[simp] theorem installTree_errcode (b : Builder) (s : State) : (installTree b s).errcode = s.errcode := rfl
@[simp] theorem installTree_data0 (b : Builder) (s : State) : (installTree b s).data0 = s.data0 := rfl
@[simp] theorem installTree_data1 (b : Builder) (s : State) : (installTree b s).data1 = s.data1 := rfl
@[simp] theorem installTree_data2 (b : Builder) (s : State) : (installTree b s).data2 = s.data2 := rfl
@[simp] theorem installTree_root (b : Builder) (s : State) : (installTree b s).root = BitVec.ofNat 9 (b.next - 1) := rfl
@[simp] theorem installTree_nnodes (b : Builder) (s : State) : (installTree b s).nnodes = BitVec.ofNat 10 b.next := rfl
@[simp] theorem installTree_wptr (b : Builder) (s : State) : (installTree b s).wptr = s.wptr := rfl
@[simp] theorem installTree_rptr (b : Builder) (s : State) : (installTree b s).rptr = s.rptr := rfl
@[simp] theorem installTree_dnode (b : Builder) (s : State) : (installTree b s).dnode = BitVec.ofNat 9 (b.next - 1) := rfl
@[simp] theorem installTree_ie (b : Builder) (s : State) : (installTree b s).ie = s.ie := rfl
@[simp] theorem installTree_lastcmd (b : Builder) (s : State) : (installTree b s).lastcmd = s.lastcmd := rfl
@[simp] theorem installTree_pend (b : Builder) (s : State) : (installTree b s).pend = s.pend := rfl
@[simp] theorem installTree_freq (b : Builder) (s : State) : (installTree b s).freq = s.freq := rfl
@[simp] theorem installTree_node (b : Builder) (s : State) : (installTree b s).node = b.node := rfl
@[simp] theorem installTree_nw (b : Builder) (s : State) : (installTree b s).nw = b.nw := rfl
@[simp] theorem installTree_codes (b : Builder) (s : State) : (installTree b s).codes = clearedTable := rfl
@[simp] theorem installTree_buf (b : Builder) (s : State) : (installTree b s).buf = s.buf := rfl
@[simp] theorem installTree_resp (b : Builder) (s : State) : (installTree b s).resp = s.resp := rfl
@[simp] theorem installTree_events (b : Builder) (s : State) : (installTree b s).events = s.events := rfl
@[simp] theorem installTree_resets (b : Builder) (s : State) : (installTree b s).resets = s.resets := rfl

/-! ## `afterEvent` -/

@[simp] theorem afterEvent_busy (s : State) : (afterEvent s).busy = s.busy := rfl
@[simp] theorem afterEvent_done (s : State) : (afterEvent s).done = s.done := rfl
@[simp] theorem afterEvent_err (s : State) : (afterEvent s).err = s.err := rfl
@[simp] theorem afterEvent_symv (s : State) : (afterEvent s).symv = s.symv := rfl
@[simp] theorem afterEvent_tv (s : State) : (afterEvent s).tv = s.tv := rfl
@[simp] theorem afterEvent_ctv (s : State) : (afterEvent s).ctv = s.ctv := rfl
@[simp] theorem afterEvent_lost (s : State) : (afterEvent s).lost = s.lost := rfl
@[simp] theorem afterEvent_errcode (s : State) : (afterEvent s).errcode = s.errcode := rfl
@[simp] theorem afterEvent_data0 (s : State) : (afterEvent s).data0 = s.data0 := rfl
@[simp] theorem afterEvent_data1 (s : State) : (afterEvent s).data1 = s.data1 := rfl
@[simp] theorem afterEvent_data2 (s : State) : (afterEvent s).data2 = s.data2 := rfl
@[simp] theorem afterEvent_root (s : State) : (afterEvent s).root = s.root := rfl
@[simp] theorem afterEvent_nnodes (s : State) : (afterEvent s).nnodes = s.nnodes := rfl
@[simp] theorem afterEvent_wptr (s : State) : (afterEvent s).wptr = s.wptr := rfl
@[simp] theorem afterEvent_rptr (s : State) : (afterEvent s).rptr = s.rptr := rfl
@[simp] theorem afterEvent_dnode (s : State) : (afterEvent s).dnode = s.dnode := rfl
@[simp] theorem afterEvent_ie (s : State) : (afterEvent s).ie = s.ie := rfl
@[simp] theorem afterEvent_lastcmd (s : State) : (afterEvent s).lastcmd = s.lastcmd := rfl
@[simp] theorem afterEvent_pend (s : State) : (afterEvent s).pend = s.pend := rfl
@[simp] theorem afterEvent_freq (s : State) : (afterEvent s).freq = s.freq := rfl
@[simp] theorem afterEvent_node (s : State) : (afterEvent s).node = s.node := rfl
@[simp] theorem afterEvent_nw (s : State) : (afterEvent s).nw = s.nw := rfl
@[simp] theorem afterEvent_codes (s : State) : (afterEvent s).codes = s.codes := rfl
@[simp] theorem afterEvent_buf (s : State) : (afterEvent s).buf = s.buf := rfl
@[simp] theorem afterEvent_resp (s : State) : (afterEvent s).resp = s.resp := rfl
@[simp] theorem afterEvent_events (s : State) : (afterEvent s).events = s.events.tail := rfl
@[simp] theorem afterEvent_resets (s : State) : (afterEvent s).resets = s.resets := rfl

end Sys2Proof.Machine
end

