-- ==== Sys2Proof/Laws/Ops.lean ====
section
/-! SUPPORT. What the shared operations do: arrays, completion, and that a command always completes. -/

namespace Sys2Proof.Machine

/-! ## Arrays -/

@[simp] theorem getElem_tabulate {α : Type} (n : Nat) (f : Nat → α) (i : Nat) (h : i < n) :
    (tabulate n f)[i] = f i := by
  simp [tabulate]

@[simp] theorem symEntry_tabulate {α : Type} (f : Nat → α) (x : Sym) : symEntry (tabulate 256 f) x = f x.toNat := by
  simp [symEntry]

@[simp] theorem symEntry_setSymEntry_same {α : Type} (v : Vector α 256) (x : Sym) (a : α) :
    symEntry (setSymEntry v x a) x = a := by
  simp [symEntry, setSymEntry]

theorem symEntry_setSymEntry_other {α : Type} (v : Vector α 256) {x y : Sym} (a : α) (h : x ≠ y) :
    symEntry (setSymEntry v x a) y = symEntry v y := by
  have hne : x.toNat ≠ y.toNat := fun e => h (BitVec.eq_of_toNat_eq e)
  simp [symEntry, setSymEntry, Vector.getElem_set_ne, hne]

theorem nodeEntry_of_lt (v : Vector Word 511) {i : Nat} (h : i < 511) : nodeEntry v i = v[i] := by
  simp [nodeEntry, h]

theorem nodeEntry_setNodeEntry_same (v : Vector Word 511) {i : Nat} (w : Word) (h : i < 511) :
    nodeEntry (setNodeEntry v i w) i = w := by
  simp [nodeEntry, setNodeEntry, h]

theorem nodeEntry_setNodeEntry_other (v : Vector Word 511) {i j : Nat} (w : Word) (h : i ≠ j) :
    nodeEntry (setNodeEntry v i w) j = nodeEntry v j := by
  unfold nodeEntry setNodeEntry
  split
  · simp [Vector.getElem_setIfInBounds_ne, h]
  · rfl

/-- `presentSyms` is the rule's list: every symbol with FREQ != 0, in ascending order (R122). -/
theorem presentSyms_eq_filter (freq : Vector Word 256) :
    presentSyms freq = allSyms.filter fun x => symEntry freq x != 0 := by
  have hz : allSyms.zip freq.toList = allSyms.map fun x => (x, symEntry freq x) := by
    apply List.ext_getElem
    · simp [allSyms]
    · intro i h1 h2
      have hi : i < 256 := by simpa [allSyms] using h2
      simp [allSyms, symEntry, Nat.mod_eq_of_lt hi]
  simp [presentSyms, hz, List.filter_map, Function.comp_def]

/-! ## Completion (R85) -/

@[simp] theorem complete_quiet (s0 s1 : State) : complete s0 (quiet s1) = { succeeded s1 with err := s1.err } := by
  simp [complete, quiet, deliver, completionFields, succeeded]

theorem finish_quiet (s0 s1 : State) : finish s0 (quiet s1) = .next (succeeded s1) := by
  simp [finish, complete, quiet, deliver, completionFields, succeeded]

theorem finish_emit (s0 s1 : State) (x : Sym) : finish s0 (.ok (s1, some x)) = .next (emitted x s1) := by
  simp [finish, complete, deliver, completionFields, emitted]

theorem finish_error (s0 : State) {c : ErrCode} (h : c ≠ .ok) : finish s0 (.error c) = .next (failed c s0) := by
  cases c <;> simp_all [finish, complete, completionFields, failed]

/-- What a finished command can answer: a success that emits nothing, a success that emits, or a failure that leaves
the state it started from. -/
theorem finish_cases {s0 t : State} {r : Run} (h : finish s0 r = .next t) :
    (∃ s1, r = .ok (s1, none) ∧ t = succeeded s1) ∨ (∃ s1 x, r = .ok (s1, some x) ∧ t = emitted x s1) ∨
      (∃ c, r = .error c ∧ t = completionFields c false s0) := by
  rcases r with c | ⟨s1, _ | x⟩
  · exact .inr (.inr ⟨c, rfl, by simpa [finish, complete] using h.symm⟩)
  · exact .inl ⟨s1, rfl, by
      rw [show (Except.ok (s1, none) : Run) = quiet s1 from rfl, finish_quiet] at h
      simpa using h.symm⟩
  · exact .inr (.inl ⟨s1, x, rfl, by rw [finish_emit] at h; simpa using h.symm⟩)

/-- Every meaning is the completion of some run: no command faults, none is refused (R231). -/
theorem exec_eq_finish (i : Instr) (s : State) : ∃ r, exec i s = finish s r := by
  cases i <;> exact ⟨_, rfl⟩

end Sys2Proof.Machine
end

