-- ==== Sys2Proof/Laws/Memory.lean ====
section
/-! SUPPORT. The stream buffer: read after write of one bit, appending bits, and that every operation keeps the buffer's
size, so `Memory.wf`. -/

namespace Sys2Proof.Machine

@[simp] theorem length_setStreamBit (buf : List Word) (i : Nat) (b : Bool) :
    (setStreamBit buf i b).length = buf.length := by
  unfold setStreamBit
  split <;> simp

@[simp] theorem length_writeStreamBits (buf : List Word) (pos : Nat) (bits : List Bool) :
    (writeStreamBits buf pos bits).length = buf.length := by
  induction bits generalizing buf pos with
  | nil => rfl
  | cons b bs ih => simp [writeStreamBits, ih]

/-- The canonical form depends on the buffer's size only. -/
theorem wf_of_length_eq {buf buf' : List Word} (h : buf'.length = buf.length) : Memory.wf buf' = Memory.wf buf := by
  simp [Memory.wf, h]

theorem setStreamBit_keeps_wf (buf : List Word) (i : Nat) (b : Bool) :
    Memory.wf (setStreamBit buf i b) = Memory.wf buf := wf_of_length_eq (by simp)

theorem writeStreamBits_keeps_wf (buf : List Word) (pos : Nat) (bits : List Bool) :
    Memory.wf (writeStreamBits buf pos bits) = Memory.wf buf := wf_of_length_eq (by simp)

theorem set_keeps_wf (buf : List Word) (i : Nat) (w : Word) : Memory.wf (buf.set i w) = Memory.wf buf :=
  wf_of_length_eq (by simp)

theorem replicate_keeps_wf (buf : List Word) (w : Word) : Memory.wf (List.replicate buf.length w) = Memory.wf buf :=
  wf_of_length_eq (by simp)

theorem reset_wf : Memory.wf State.reset.buf = true := by
  simp [Memory.wf, State.reset, powerOn, Config.refBufWords]

theorem getLsbD_setBit_same (w : Word) {k : Nat} (b : Bool) (h : k < 32) : (setBit w k b).getLsbD k = b := by
  cases b <;> simp [setBit, h]

theorem getLsbD_setBit_other (w : Word) {k j : Nat} (b : Bool) (h : j ≠ k) :
    (setBit w k b).getLsbD j = w.getLsbD j := by
  by_cases hj : j < 32
  · have hk : j < k ∨ ¬ j - k = 0 := by omega
    cases b
    · simp [setBit, hj, hk]
    · simp only [setBit, if_true, BitVec.getLsbD_or, Bool.or_eq_left_iff_imp]
      intro h1
      simp [hj] at h1
      omega
  · simp [BitVec.getLsbD_of_ge _ j (show 32 ≤ j by omega)]

theorem streamBit_setStreamBit_same (buf : List Word) (i : Nat) (b : Bool) (h : i < 32 * buf.length) :
    streamBit (setStreamBit buf i b) i = b := by
  have hi : i / 32 < buf.length := by omega
  simp [setStreamBit, streamBit, hi, getLsbD_setBit_same _ b (show 31 - i % 32 < 32 by omega)]

theorem streamBit_setStreamBit_other (buf : List Word) {i j : Nat} (b : Bool) (h : j ≠ i) :
    streamBit (setStreamBit buf i b) j = streamBit buf j := by
  unfold setStreamBit
  split
  · next w hw =>
    by_cases hd : i / 32 = j / 32
    · rw [hd] at hw ⊢
      have hb : 31 - j % 32 ≠ 31 - i % 32 := by omega
      have hlt : j / 32 < buf.length := (List.getElem?_eq_some_iff.mp hw).1
      have hget : buf[j / 32] = w := (List.getElem?_eq_some_iff.mp hw).2
      simp [streamBit, hlt, hget, getLsbD_setBit_other _ b hb]
    · simp [streamBit, hd]
  · rfl

/-- Appending bits leaves every bit before and after them. -/
theorem streamBit_writeStreamBits_outside (buf : List Word) (pos : Nat) (bits : List Bool) {i : Nat}
    (h : i < pos ∨ pos + bits.length ≤ i) : streamBit (writeStreamBits buf pos bits) i = streamBit buf i := by
  induction bits generalizing buf pos with
  | nil => rfl
  | cons b bs ih =>
    simp only [List.length_cons] at h
    rw [writeStreamBits, ih _ _ (by omega), streamBit_setStreamBit_other _ b (by omega)]

/-- Appending bits writes them, first bit first. -/
theorem streamBit_writeStreamBits_inside (buf : List Word) (pos : Nat) (bits : List Bool) {j : Nat}
    (h : j < bits.length) (hcap : pos + bits.length ≤ 32 * buf.length) :
    streamBit (writeStreamBits buf pos bits) (pos + j) = bits[j] := by
  induction bits generalizing buf pos j with
  | nil => simp at h
  | cons b bs ih =>
    simp only [List.length_cons] at h hcap
    cases j with
    | zero =>
      rw [writeStreamBits, streamBit_writeStreamBits_outside _ _ _ (.inl (by omega)), Nat.add_zero,
        streamBit_setStreamBit_same _ _ _ (by omega)]
      rfl
    | succ j =>
      rw [writeStreamBits, show pos + (j + 1) = pos + 1 + j by omega, ih _ _ (by omega) (by simp; omega)]
      rfl

@[simp] theorem length_codeBits (e : CodeEntry) : (codeBits e).length = e.clen.toNat := by
  simp [codeBits]

theorem codeBits_getElem (e : CodeEntry) {j : Nat} (h : j < (codeBits e).length) (hl : e.clen.toNat ≤ 64) :
    (codeBits e)[j] = e.cval.getLsbD (e.clen.toNat - 1 - j) := by
  simp only [length_codeBits] at h
  have hk : e.clen.toNat - 1 - j < 64 := by omega
  simp [codeBits, cvalBit, hk]

end Sys2Proof.Machine
end

