-- ==== Sys2Proof/Laws/Decoder.lean ====
section
/-! SUPPORT. Paths in the tree and one bit of the walk (R150, R200). -/

namespace Sys2Proof.Machine

@[simp] theorem follow_nil (node : Vector Word 511) (i : Nat) : follow node i [] = some i := rfl

theorem follow_cons_of_leaf {node : Vector Word 511} {i : Nat} (b : Bool) (p : List Bool) (h : leafNode node i) :
    follow node i (b :: p) = none := by
  simp [follow, h]

theorem follow_cons_of_internal {node : Vector Word 511} {i : Nat} (b : Bool) (p : List Bool) (h : ¬ leafNode node i) :
    follow node i (b :: p) = follow node (childField b (nodeEntry node i)).toNat p := by
  simp [follow, h]

/-- A path in two parts is followed in two parts. -/
theorem follow_append (node : Vector Word 511) (i : Nat) (p q : List Bool) :
    follow node i (p ++ q) = (follow node i p).bind fun j => follow node j q := by
  induction p generalizing i with
  | nil => rfl
  | cons b p ih =>
    by_cases h : leafNode node i
    · simp [follow_cons_of_leaf _ _ h]
    · simp [follow_cons_of_internal _ _ h, ih]

/-- No path goes on beyond a leaf. -/
theorem follow_of_leaf {node : Vector Word 511} {i j : Nat} {p : List Bool} (h : leafNode node i)
    (hf : follow node i p = some j) : p = [] ∧ j = i := by
  cases p with
  | nil => simpa using hf.symm
  | cons b p => simp [follow_cons_of_leaf b p h] at hf

/-- One bit at a leaf (R200): it emits the leaf's symbol on 0 and raises DECODE on 1. -/
theorem walkStep_of_leaf {s : State} (b : Bool) (h : leafNode s.node s.dnode.toNat) :
    walkStep b s = if b then .error .decode else .ok (s, some (symField (nodeEntry s.node s.dnode.toNat))) := by
  simp [walkStep, h]

/-- One bit whose child is a leaf (R200): it emits the child's symbol and returns to ROOT. -/
theorem walkStep_to_leaf {s : State} {b : Bool} {c : Nat} (h : ¬ leafNode s.node s.dnode.toNat)
    (hc : follow s.node s.dnode.toNat [b] = some c) (hl : leafNode s.node c) :
    walkStep b s = .ok ({ s with dnode := s.root }, some (symField (nodeEntry s.node c))) := by
  rw [follow_cons_of_internal _ _ h, follow_nil, Option.some.injEq] at hc
  subst hc
  simp [walkStep, h, hl]

/-- One bit whose child is internal (R200): it moves down. -/
theorem walkStep_to_internal {s : State} {b : Bool} {c : Nat} (h : ¬ leafNode s.node s.dnode.toNat)
    (hc : follow s.node s.dnode.toNat [b] = some c) (hl : ¬ leafNode s.node c) :
    walkStep b s = quiet { s with dnode := BitVec.ofNat 9 c } := by
  rw [follow_cons_of_internal _ _ h, follow_nil, Option.some.injEq] at hc
  subst hc
  simp [walkStep, h, hl]

end Sys2Proof.Machine
end

