-- ==== Sys2Proof/Laws/Operands.lean ====
section
/-! SUPPORT. The operand kinds on legal operands (R81), and the bits of STATUS (R26). -/

namespace Sys2Proof.Machine

theorem symLegal_of_lt {a : BitVec 16} (h : a.toNat < 256) : symLegal a = true := by
  simp [symLegal]
  omega

theorem symLegal_of_not_lt {a : BitVec 16} (h : ¬ a.toNat < 256) : symLegal a = false := by
  simp [symLegal]
  omega

theorem symOf_toNat {a : BitVec 16} (h : a.toNat < 256) : (symOf a).toNat = a.toNat := by
  simpa [symOf] using h

@[simp] theorem symOf_setWidth (x : Sym) : symOf (x.setWidth 16) = x := by
  apply BitVec.eq_of_toNat_eq
  simp [symOf]

@[simp] theorem symLegal_setWidth (x : Sym) : symLegal (x.setWidth 16) = true := by
  have := x.isLt
  simp [symLegal]
  omega

theorem symEntry_symOf {α : Type} (v : Vector α 256) {a : BitVec 16} (h : a.toNat < 256) :
    symEntry v (symOf a) = v[a.toNat] := by
  simp [symEntry, symOf_toNat h]

theorem setSymEntry_symOf {α : Type} (v : Vector α 256) {a : BitVec 16} (x : α) (h : a.toNat < 256) :
    setSymEntry v (symOf a) x = v.set a.toNat x := by
  simp [setSymEntry, symOf_toNat h]

theorem nodeLegal_of_lt {a : BitVec 16} (h : a.toNat < 511) : nodeLegal a = true := by
  simp [nodeLegal]
  omega

theorem nodeOf_toNat {a : BitVec 16} (h : a.toNat < 511) : (nodeOf a).toNat = a.toNat := by
  simp [nodeOf]
  omega

theorem setNodeEntry_of_lt (v : Vector Word 511) {i : Nat} (w : Word) (h : i < 511) :
    setNodeEntry v i w = v.set i w := by
  simp [setNodeEntry, Vector.setIfInBounds, Vector.set, Array.setIfInBounds, h]

/-- The last bit of a word built bit by bit, and the bits before it: how a bit of `statusWord` is read. -/
theorem getLsbD_append_ofBool_zero {n : Nat} (x : BitVec n) (b : Bool) : (x ++ BitVec.ofBool b).getLsbD 0 = b := by
  rw [BitVec.getLsbD_append]
  cases b <;> rfl

theorem getLsbD_append_ofBool_succ {n : Nat} (x : BitVec n) (b : Bool) (i : Nat) :
    (x ++ BitVec.ofBool b).getLsbD (i + 1) = x.getLsbD i := by
  rw [BitVec.getLsbD_append]
  simp

/-- The fields of a leaf word (R120). -/
theorem leafWord_fields (x : Sym) :
    isLeafWord (leafWord x) = true ∧ symField (leafWord x) = x ∧ leafZeros (leafWord x) = true := by
  refine ⟨?_, ?_, ?_⟩
  · simp [isLeafWord, leafWord]
  · ext i hi
    have : ¬ i = 31 := by omega
    simp [symField, leafWord, hi]
    interval_cases i <;> simp
  · revert x
    decide

/-- The fields of an internal word (R120). -/
theorem internalWord_fields {a b : Nat} (ha : a < 512) (hb : b < 512) :
    isLeafWord (internalWord a b) = false ∧ (leftField (internalWord a b)).toNat = a ∧
      (rightField (internalWord a b)).toNat = b ∧ internalZeros (internalWord a b) = true := by
  have hor : (b * 65536) ||| a = b * 65536 + a := by
    rw [show b * 65536 = b <<< 16 by simp [Nat.shiftLeft_eq], ← Nat.shiftLeft_add_eq_or_of_lt (by omega)]
  have hw : (internalWord a b).toNat = b * 65536 + a := by
    simp only [internalWord, BitVec.toNat_or, BitVec.toNat_shiftLeft, BitVec.toNat_ofNat, Nat.shiftLeft_eq]
    rw [Nat.mod_eq_of_lt (show a < 2 ^ 32 by omega), Nat.mod_eq_of_lt (show b < 2 ^ 32 by omega),
      Nat.mod_eq_of_lt (show b * 2 ^ 16 < 2 ^ 32 by omega)]
    exact hor
  refine ⟨?_, ?_, ?_, ?_⟩
  · have : (internalWord a b).msb = false := by
      rw [BitVec.msb_eq_decide, hw]
      simp
      omega
    simpa [isLeafWord, BitVec.msb_eq_getLsbD_last] using this
  · simp [leftField, BitVec.extractLsb'_toNat, hw, Nat.shiftRight_eq_div_pow]
    omega
  · simp [rightField, BitVec.extractLsb'_toNat, hw, Nat.shiftRight_eq_div_pow]
    omega
  · have h1 : (internalWord a b).extractLsb' 25 6 = 0 := by
      apply BitVec.eq_of_toNat_eq
      simp [BitVec.extractLsb'_toNat, hw, Nat.shiftRight_eq_div_pow]
      omega
    have h2 : (internalWord a b).extractLsb' 9 7 = 0 := by
      apply BitVec.eq_of_toNat_eq
      simp [BitVec.extractLsb'_toNat, hw, Nat.shiftRight_eq_div_pow]
      omega
    simp [internalZeros, h1, h2]

end Sys2Proof.Machine
end

