-- ==== Sys2Proof/Laws/PerInstr.lean ====
section
/-! SUPPORT. Statements made for every instruction, one lemma per constructor. -/

namespace Sys2Proof.Laws.EncodeFields

/-- The word of an instruction has its opcode in OP, 0 in RSV and its operand in ARG (R80, R89). -/
def Statement (i : Instr) : Prop :=
  opField (encode i) = i.opcode ∧ rsvField (encode i) = 0 ∧ argField (encode i) = i.arg

theorem all (i : Instr) : Statement i := ⟨opField_encode i, rsvField_encode i, argField_encode i⟩

theorem nop : Statement .nop := all _
theorem init : Statement .init := all _
theorem clrf : Statement .clrf := all _
theorem cnt (a : BitVec 16) : Statement (.cnt a) := all _
theorem wrf (a : BitVec 16) : Statement (.wrf a) := all _
theorem rdf (a : BitVec 16) : Statement (.rdf a) := all _
theorem build : Statement .build := all _
theorem rdn (a : BitVec 16) : Statement (.rdn a) := all _
theorem wrn (a : BitVec 16) : Statement (.wrn a) := all _
theorem setroot : Statement .setroot := all _
theorem tchk : Statement .tchk := all _
theorem genc : Statement .genc := all _
theorem rdc (a : BitVec 16) : Statement (.rdc a) := all _
theorem clrb : Statement .clrb := all _
theorem setw : Statement .setw := all _
theorem setr : Statement .setr := all _
theorem wrb (a : BitVec 16) : Statement (.wrb a) := all _
theorem rdb (a : BitVec 16) : Statement (.rdb a) := all _
theorem enc (a : BitVec 16) : Statement (.enc a) := all _
theorem drst : Statement .drst := all _
theorem dbit (a : BitVec 16) : Statement (.dbit a) := all _
theorem decs : Statement .decs := all _
theorem dend : Statement .dend := all _

end Sys2Proof.Laws.EncodeFields
end

