-- ==== Sys2Proof/Laws/Step.lean ====
section
/-! SUPPORT. What one step can do, said once: it is the next event, handled in the state without that event. -/

namespace Sys2Proof.Machine

theorem afterEvent_of_nil {s : State} (h : s.events = []) : afterEvent s = s := by
  cases s
  simp_all [afterEvent]

theorem step_eq_handleEvent (s : State) : step s = handleEvent (nextEvent s) (afterEvent s) := by
  cases h : s.events with
  | nil => simp [step, h, nextEvent, afterEvent_of_nil h, handleEvent]
  | cons e rest => simp [step, h, nextEvent, afterEvent]

/-- The engine: idle with BUSY = 0, else the completion of the pending word, which is ILLEGAL or a command (R72, R85). -/
theorem engine_cases {s t : State} (h : engine s = .next t) :
    (s.busy = false ∧ t = s) ∨ (s.busy = true ∧ decode s.pend = none ∧ t = failed .illegal s) ∨
      (s.busy = true ∧ ∃ i, decode s.pend = some i ∧ exec i s = .next t) := by
  unfold engine at h
  split at h
  · next hb =>
    unfold execute at h
    split at h
    · next i hi => exact .inr (.inr ⟨hb, i, hi, h⟩)
    · next hn =>
      rw [finish_error _ (by decide)] at h
      exact .inr (.inl ⟨hb, hn, by simpa using h.symm⟩)
  · next hb => exact .inl ⟨by simpa using hb, by simpa using h.symm⟩

/-- One step that answers a next state (R73): a bus read, a bus write, the engine's turn, or a hardware reset. -/
theorem step_cases {s t : State} (h : step s = .next t) :
    (∃ addr size, nextEvent s = .read addr size ∧ t = busRead addr size (afterEvent s)) ∨
      (∃ addr size v, nextEvent s = .write addr size v ∧ t = busWrite addr size v (afterEvent s)) ∨
      (nextEvent s = .engine ∧ engine (afterEvent s) = .next t) ∨
      (nextEvent s = .reset ∧ t = hardwareReset (afterEvent s)) := by
  rw [step_eq_handleEvent] at h
  cases he : nextEvent s with
  | read addr size => exact .inl ⟨addr, size, rfl, by simpa [he, handleEvent] using h.symm⟩
  | write addr size v => exact .inr (.inl ⟨addr, size, v, rfl, by simpa [he, handleEvent] using h.symm⟩)
  | engine => exact .inr (.inr (.inl ⟨rfl, by simpa [he, handleEvent] using h⟩))
  | reset => exact .inr (.inr (.inr ⟨rfl, by simpa [he, handleEvent] using h.symm⟩))

/-- A bus read changes the port's answer only (R71). -/
theorem busRead_eq (addr : BitVec 8) (size : Nat) (s : State) :
    busRead addr size s = { s with resp := (busRead addr size s).resp } := by
  unfold busRead
  split <;> rfl

/-- A bus write gets the bus error, or does its register's write (R65, R66 to R70). -/
theorem busWrite_cases (addr : BitVec 8) (size : Nat) (v : Word) (s : State) :
    (legalAccess addr size = false ∧ busWrite addr size v s = { s with resp := some { error := true, rdata := none } }) ∨
      (legalAccess addr size = true ∧
        busWrite addr size v s = { writeOffset addr v s with resp := some { error := false, rdata := none } }) := by
  cases h : legalAccess addr size <;> simp [busWrite, h]

/-- What a legal write can do to the block: nothing, a dropped write, an accepted command, a DATA, STATUS or IE write. -/
theorem writeOffset_cases (off : BitVec 8) (v : Word) (s : State) :
    writeOffset off v s = s ∨ (s.busy = true ∧ writeOffset off v s = dropWrite s) ∨
      (s.busy = false ∧ writeOffset off v s = acceptCommand v s) ∨
      (s.busy = false ∧ (writeOffset off v s = { s with data0 := v } ∨ writeOffset off v s = { s with data1 := v } ∨
        writeOffset off v s = { s with data2 := v })) ∨
      writeOffset off v s = writeStatus v s ∨ writeOffset off v s = { s with ie := v.setWidth 2 } := by
  unfold writeOffset
  cases regAt off with
  | none => simp
  | some r => cases r <;> cases hb : s.busy <;> simp [writeReg, writeCmd, hb]

end Sys2Proof.Machine
end

