-- ==== Sys2Proof/Laws/Tree.lean ====
section
/-! SUPPORT. The builder's queue (R122, R123). -/

namespace Sys2Proof.Machine

/-- The least key is one of the keys. -/
theorem leastKey_mem (k : QueueKey) (ls : List QueueKey) : leastKey k ls ∈ k :: ls := by
  induction ls generalizing k with
  | nil => simp [leastKey]
  | cons l ls ih =>
    rw [leastKey]
    by_cases hk : keyBefore l k = true
    · have h := ih l
      simp only [List.mem_cons, hk, if_true] at h ⊢
      tauto
    · have h := ih k
      simp only [List.mem_cons, hk, Bool.false_eq_true, if_false] at h ⊢
      tauto

/-- `keyBefore` is the order of R123. -/
theorem keyBefore_iff (k l : QueueKey) :
    keyBefore k l = true ↔ k.weight < l.weight ∨ (k.weight = l.weight ∧ k.index < l.index) := by
  simp [keyBefore]

/-- No key of the queue comes before the least. -/
theorem leastKey_least (k : QueueKey) (ls : List QueueKey) :
    ∀ l ∈ k :: ls, keyBefore l (leastKey k ls) = false := by
  induction ls generalizing k with
  | nil => simp [leastKey, keyBefore]
  | cons m ms ih =>
    intro l hl
    have h := ih (if keyBefore m k then m else k)
    rw [leastKey]
    by_cases hmk : keyBefore m k = true
    · simp only [hmk, if_true] at h ⊢
      rcases List.mem_cons.mp hl with rfl | hl
      · have hm := h m (by simp)
        rw [← Bool.not_eq_true, keyBefore_iff] at hm ⊢
        rw [keyBefore_iff] at hmk
        omega
      · exact h l hl
    · simp only [hmk] at h ⊢
      rcases List.mem_cons.mp hl with rfl | hl
      · exact h l (by simp)
      · rcases List.mem_cons.mp hl with rfl | hl
        · have hk := h k (by simp)
          rw [← Bool.not_eq_true, keyBefore_iff] at hk ⊢
          rw [keyBefore_iff] at hmk
          simp only [Bool.false_eq_true, if_false] at hk ⊢
          omega
        · exact h l (by simp [hl])

/-- Taking the least key: what is taken and what is left are the queue, and nothing left comes before what is taken. -/
theorem takeLeast_spec {q rest : List QueueKey} {k : QueueKey} (h : takeLeast q = some (k, rest)) :
    q.Perm (k :: rest) ∧ ∀ l ∈ rest, keyBefore l k = false := by
  cases q with
  | nil => simp [takeLeast] at h
  | cons x xs =>
    obtain ⟨rfl, rfl⟩ : leastKey x xs = k ∧ (x :: xs).erase (leastKey x xs) = rest := by simpa [takeLeast] using h
    exact ⟨List.perm_cons_erase (leastKey_mem x xs), fun l hl => leastKey_least x xs l (List.mem_of_mem_erase hl)⟩

theorem takeLeast_eq_none {q : List QueueKey} : takeLeast q = none ↔ q = [] := by
  cases q <;> simp [takeLeast]

theorem length_takeLeast {q rest : List QueueKey} {k : QueueKey} (h : takeLeast q = some (k, rest)) :
    q.length = rest.length + 1 := by
  simpa using (takeLeast_spec h).1.length_eq

@[simp] theorem addNode_next (w : Word) (wt : Nat) (b : Builder) : (addNode w wt b).next = b.next + 1 := rfl
@[simp] theorem addNode_queue (w : Word) (wt : Nat) (b : Builder) :
    (addNode w wt b).queue = { weight := wt, index := b.next } :: b.queue := rfl
@[simp] theorem addNode_node (w : Word) (wt : Nat) (b : Builder) :
    (addNode w wt b).node = setNodeEntry b.node b.next w := rfl
@[simp] theorem addNode_nw (w : Word) (wt : Nat) (b : Builder) :
    (addNode w wt b).nw = setNodeEntry b.nw b.next (BitVec.ofNat 32 wt) := rfl

end Sys2Proof.Machine
end

