-- ==== Sys2Proof/Machine/HostProgram.lean ====
section
/-! DEFINITION. The host's side: the byte lanes of R64, and the host-program syntax of R89 to R91 as lists of events (a
host program run from a state is the state with these events). The step never uses this file. -/

namespace Sys2Proof.Machine

/-- The bytes a byte-addressed host sees of a register's value, lowest address first (R64). -/
def byteLanes (v : Word) : List (BitVec 8) :=
  [v.extractLsb' 0 8, v.extractLsb' 8 8, v.extractLsb' 16 8, v.extractLsb' 24 8]

/-- The bytes of a byte-oriented stream artifact of one buffer word whose bits are in stream order (R64). -/
def streamBytes (v : Word) : List (BitVec 8) := (byteLanes v).reverse

/-- The offset of a register (R22). -/
def offsetOf : Reg → BitVec 8
  | .id => 0x00
  | .cmd => 0x04
  | .status => 0x08
  | .data0 => 0x0C
  | .data1 => 0x10
  | .data2 => 0x14
  | .root => 0x18
  | .nnodes => 0x1C
  | .wptr => 0x20
  | .rptr => 0x24
  | .dnode => 0x28
  | .cap => 0x2C
  | .ie => 0x30
  | .nsym => 0x34
  | .lastcmd => 0x38

/-- `wr REG, v` (R90). -/
def hostWr (r : Reg) (v : Word) : List Event := [.write (offsetOf r) 4 v]

/-- `rd REG` (R90). -/
def hostRd (r : Reg) : List Event := [.read (offsetOf r) 4]

/-- `cmd MNEMONIC [arg]` (R90). -/
def hostCmd (i : Instr) : List Event := hostWr .cmd (encode i)

/-- `wait` (R91): reads of STATUS until one returns BUSY = 0. `polls` reads come before the completion. -/
def hostWait (polls : Nat) : List Event :=
  (List.replicate polls (hostRd .status)).flatten ++ [.engine] ++ hostRd .status

/-- `do M [a]` (R91). DESIGN CHOICE: the command completes before the first STATUS read of its `wait`; the spec leaves
its duration open (R279, I15), and `hostCmd i ++ hostWait polls` is the run in which `polls` reads come first (log 16). The
builders below use this one. -/
def hostDo (i : Instr) : List Event := hostCmd i ++ hostWait 0

/-- `wrf s, v` (R91). -/
def hostWrf (x : Sym) (v : Word) : List Event := hostWr .data0 v ++ hostDo (.wrf (x.setWidth 16))

/-- `wrn i, w, wt` (R91). -/
def hostWrn (i : BitVec 16) (w wt : Word) : List Event := hostWr .data0 w ++ hostWr .data1 wt ++ hostDo (.wrn i)

/-- `setroot r, n` (R91). -/
def hostSetroot (r n : Word) : List Event := hostWr .data0 r ++ hostWr .data1 n ++ hostDo .setroot

/-- `setw n` (R91). -/
def hostSetw (n : Word) : List Event := hostWr .data0 n ++ hostDo .setw

/-- `setr n` (R91). -/
def hostSetr (n : Word) : List Event := hostWr .data0 n ++ hostDo .setr

/-- `wrb w, v` (R91). -/
def hostWrb (w : BitVec 16) (v : Word) : List Event := hostWr .data0 v ++ hostDo (.wrb w)

/-- `cnts "t"` (R91). -/
def hostCnts (t : List Sym) : List Event := (t.map fun x => hostDo (.cnt (x.setWidth 16))).flatten

/-- `encs "t"` (R91). -/
def hostEncs (t : List Sym) : List Event := (t.map fun x => hostDo (.enc (x.setWidth 16))).flatten

/-- `clrst` (R91): clears DONE, ERR and LOST. -/
def hostClrst : List Event := hostWr .status 0x00000106

end Sys2Proof.Machine
end

