-- ==== Sys2Proof/Tests/Slice0.lean ====
section
/-! SUPPORT. Tests of one step each, with expected values from spec/95_test_vectors.md (the vector's name stands in each
comment), and for every statement with hypotheses a witness that meets them. -/

namespace Sys2Proof.Machine.Tests

set_option Elab.async false

/-! ## The states the tests start from -/

/-- Node RAM, or NW, with the given first entries and 0 elsewhere. -/
def nodesOf (ws : List Word) : Vector Word 511 := tabulate 511 fun i => ws.getD i 0

/-- A frequency table with the given counters and 0 elsewhere. -/
def freqOf (l : List (Nat × Word)) : Vector Word 256 := tabulate 256 fun i => (l.lookup i).getD 0

/-- A code table with the given lengths and values and every other entry cleared. -/
def codesOf (l : List (Nat × BitVec 7 × BitVec 64)) : Vector CodeEntry 256 := tabulate 256 fun i =>
  match l.lookup i with
  | some e => { cv := true, clen := e.1, cval := e.2 }
  | none => clearedEntry

/-- After reset in a block with four buffer words, with 0 wherever the spec gives no value. -/
def st0 : State :=
  { powerOn 4 0 with node := nodesOf [], nw := nodesOf [], buf := [0, 0, 0, 0], pend := 0 }

/-- The tree of vector TL-7, accepted. -/
def abSt : State :=
  { st0 with
    node := nodesOf [0x80000061, 0x80000062, 0x00010000], nw := nodesOf [1, 1, 2]
    root := 2, nnodes := 3, dnode := 2, tv := true }

/-- The code table of a tree. -/
def tableOf (node : Vector Word 511) (root : Nat) : Vector CodeEntry 256 :=
  match genCodes node root with
  | .ok table => table
  | .error _ => clearedTable

/-- `abSt` with its code table (vector CT-6: a = 0, b = 1). -/
def abCt : State := { abSt with ctv := true, codes := tableOf abSt.node abSt.root.toNat }

/-- The tree of "abracadabra" (vector TB-3) with its code table (vector CT-2). -/
def abraCt : State :=
  { st0 with
    freq := freqOf [(0x61, 5), (0x62, 2), (0x63, 1), (0x64, 1), (0x72, 2)]
    node := nodesOf [0x80000061, 0x80000062, 0x80000063, 0x80000064, 0x80000072, 0x00030002, 0x00040001, 0x00060005,
      0x00070000]
    nw := nodesOf [5, 2, 1, 1, 2, 2, 4, 6, 11]
    codes := codesOf [(0x61, 1, 0), (0x62, 3, 6), (0x63, 3, 4), (0x64, 3, 5), (0x72, 3, 7)]
    root := 8, nnodes := 9, dnode := 8, tv := true, ctv := true }

/-- The single-leaf tree of "aaaa" with its code table (vectors TB-2, CT-5). -/
def aCt : State :=
  { st0 with
    node := nodesOf [0x80000061], nw := nodesOf [4], nnodes := 1, tv := true, ctv := true
    codes := codesOf [(0x61, 1, 0)] }

/-- The caterpillar tree with k leaves (95_test_vectors.md, section 2.4), accepted. -/
def caterpillar (k : Nat) : State :=
  { st0 with
    node := tabulate 511 fun i =>
      if i < k then 0x80000000#32 ||| BitVec.ofNat 32 i
      else if i < 2 * k - 2 then (BitVec.ofNat 32 (i + 1) <<< 16) ||| BitVec.ofNat 32 (i - k)
      else if i = 2 * k - 2 then (BitVec.ofNat 32 (k - 1) <<< 16) ||| BitVec.ofNat 32 (k - 2) else 0
    root := BitVec.ofNat 9 k, nnodes := BitVec.ofNat 10 (2 * k - 1), dnode := BitVec.ofNat 9 k, tv := true }

/-- The command ends in a next state with property `p`. -/
def ends (i : Instr) (s : State) (p : State → Bool) : Bool :=
  match exec i s with
  | .next t => p t
  | _ => false

/-- One step ends in a next state with property `p`. -/
def steps (s : State) (p : State → Bool) : Bool :=
  match step s with
  | .next t => p t
  | _ => false

/-- `s` with one event to come. -/
def withEvent (e : Event) (s : State) : State := { s with events := [e] }

/-- `s` with a command word accepted. -/
def pending (w : Word) (s : State) : State := acceptCommand w s

/-! ## Decoding: words written out from R80 and R82, one for every command -/

theorem test_decode_system :
    decode 0b00000000_00000000_0000000000000000 = some .nop ∧
    decode 0b00000001_00000000_0000000000000000 = some .init := by decide

theorem test_decode_frequency :
    decode 0b00010000_00000000_0000000000000000 = some .clrf ∧
    decode 0b00010001_00000000_0000000001100001 = some (.cnt 97) ∧
    decode 0b00010010_00000000_0000000011111111 = some (.wrf 255) ∧
    decode 0b00010011_00000000_0000000001111010 = some (.rdf 122) := by decide

theorem test_decode_tree :
    decode 0b00100000_00000000_0000000000000000 = some .build ∧
    decode 0b00100001_00000000_0000000111111110 = some (.rdn 510) ∧
    decode 0b00100010_00000000_0000000000000010 = some (.wrn 2) ∧
    decode 0b00100011_00000000_0000000000000000 = some .setroot ∧
    decode 0b00100100_00000000_0000000000000000 = some .tchk := by decide

theorem test_decode_codes :
    decode 0b00110000_00000000_0000000000000000 = some .genc ∧
    decode 0b00110001_00000000_1000000000000001 = some (.rdc 32769) := by decide

theorem test_decode_stream :
    decode 0b01000000_00000000_0000000000000000 = some .clrb ∧
    decode 0b01000001_00000000_0000000000000000 = some .setw ∧
    decode 0b01000010_00000000_0000000000000000 = some .setr ∧
    decode 0b01000011_00000000_0000001111111111 = some (.wrb 1023) ∧
    decode 0b01000100_00000000_0000010000000000 = some (.rdb 1024) := by decide

theorem test_decode_encoder : decode 0b01010000_00000000_0000000001100010 = some (.enc 98) := by decide

theorem test_decode_decoder :
    decode 0b01100000_00000000_0000000000000000 = some .drst ∧
    decode 0b01100001_00000000_0000000000000010 = some (.dbit 2) ∧
    decode 0b01100010_00000000_0000000000000000 = some .decs ∧
    decode 0b01100011_00000000_0000000000000000 = some .dend := by decide

/-- R83, R88; vectors SY-2, FQ-8, FQ-9, EN-4. -/
theorem test_decode_refuses :
    decode 0x00000001 = none ∧ decode 0x02000000 = none ∧ decode 0xFF000000 = none ∧ decode 0x10000001 = none ∧
    decode 0x11010061 = none ∧ decode 0x50010061 = none ∧ decode 0x64000000 = none := by decide

/-- No two rows of R82 select one word: every mask covers OP, and the 23 OPs differ. -/
theorem test_rows_do_not_overlap :
    (opcodeRows.map fun r => (opField r.2.1).toNat).Nodup ∧ ∀ r ∈ opcodeRows, opField r.2.2 = 0xFF := by decide +kernel

theorem test_table_words :
    decodeTableWord 32 0x21000008 = some (.rdn 8) ∧ decodeTableWord 8 0x12345600 = some .nop := by decide

theorem test_encode : encode (.wrb 1023) = 0x430003FF ∧ encode .dend = 0x63000000 := by decide

/-! ## WellFormed: each operand kind at its bound, and one above it -/

theorem smoke_sym_refused :
    Instr.wellFormed 4 (.cnt 256) = false ∧ Instr.wellFormed 4 (.wrf 256) = false ∧
    Instr.wellFormed 4 (.rdf 256) = false ∧ Instr.wellFormed 4 (.rdc 256) = false ∧
    Instr.wellFormed 4 (.enc 256) = false ∧ Instr.wellFormed 4 (.enc 255) = true := by decide

theorem smoke_node_refused :
    Instr.wellFormed 4 (.rdn 511) = false ∧ Instr.wellFormed 4 (.wrn 511) = false ∧
    Instr.wellFormed 4 (.wrn 510) = true := by decide

theorem smoke_word_refused :
    Instr.wellFormed 4 (.wrb 4) = false ∧ Instr.wellFormed 4 (.rdb 4) = false ∧
    Instr.wellFormed 4 (.rdb 3) = true := by decide

theorem smoke_bit_refused : Instr.wellFormed 4 (.dbit 2) = false ∧ Instr.wellFormed 4 (.dbit 1) = true := by decide

theorem smoke_none_refused : ArgKind.legal 4 .none 1 = false ∧ Instr.wellFormed 4 .build = true := by decide

/-! ## The register window -/

/-- RS-1, of a block with 4 buffer words: CAP = 128. -/
theorem test_reset_reads :
    readOffset 0x00 st0 = 0x48554601 ∧ readOffset 0x04 st0 = 0 ∧ readOffset 0x08 st0 = 0x000000C0 ∧
    readOffset 0x2C st0 = 128 ∧ readOffset 0x34 st0 = 0 ∧ readOffset 0x3C st0 = 0 ∧ irq st0 = false := by
  decide +kernel

/-- BUS-1, BUS-2: the bus error, and LOST stays 0. -/
theorem test_bus_error :
    step (withEvent (.read 0x00 1) st0) = .next { st0 with resp := some { error := true, rdata := some 0 } } ∧
    step (withEvent (.write 0x06 4 0) st0) = .next { st0 with resp := some { error := true, rdata := none } } :=
  ⟨rfl, rfl⟩

/-- BUS-4. -/
theorem test_cmd_accepted :
    steps (withEvent (.write 0x04 4 0x10000000) st0) (fun t => statusWord t = 0x000000C1 && t.pend = 0x10000000) := by
  decide +kernel

/-- BUS-5: dropped while busy, LOST set. -/
theorem test_dropped_writes :
    steps (withEvent (.write 0x04 4 0) (pending 0x10000000 st0))
      (fun t => statusWord t = 0x000001C1 && t.lastcmd = 0x10000000) ∧
    steps (withEvent (.write 0x0C 4 5) (pending 0x10000000 st0)) (fun t => statusWord t = 0x000001C1 && t.data0 = 0) := by
  decide +kernel

/-- BUS-7, IRQ-5. -/
theorem test_status_and_ie :
    steps (withEvent (.write 0x08 4 0x106) { st0 with done := true, err := true, lost := true })
      (fun t => statusWord t = 0x000000C0) ∧
    steps (withEvent (.write 0x30 4 0xFFFFFFFF) st0) (fun t => readReg .ie t = 3) := by decide +kernel

/-- IRQ-3 and IRQ-4: clearing ERR leaves the line up while DONE stands. -/
theorem test_irq :
    irq { st0 with ie := 3, done := true, err := true } = true ∧
    steps (withEvent (.write 0x08 4 0x4) { st0 with ie := 3, done := true, err := true })
      (fun t => irq t && statusWord t = 0x000000C2) := by decide +kernel

/-- R64: the lanes of ID; the stream bytes of EN-10, text 01101110 10001010 11011100 00000000. -/
theorem test_byte_lanes :
    byteLanes 0x48554601 = [0x01, 0x46, 0x55, 0x48] ∧
    streamBytes 0x6E8ADC00 = [0b01101110, 0b10001010, 0b11011100, 0b00000000] := by decide

/-- R8, R60: the window at 0x4000_0000. -/
theorem test_window :
    memWrite 0x40000000 0x40000004 4 7 = some (.write 0x04 4 7) ∧ memRead 0x40000000 0x40000100 4 = none := by decide

/-! ## Commands -/

/-- SY-1; SY-2: an ILLEGAL word. -/
theorem test_nop : exec .nop st0 = .next { st0 with done := true } := rfl

theorem test_illegal : steps (pending 0xFF000000 st0)
    (fun t => statusWord t = 0x000100C6 && t.lastcmd = 0xFF000000) := by decide +kernel

/-- SY-3: INIT keeps node RAM, BUF, IE and ERR. -/
theorem test_init :
    ends .init { abCt with err := true, wptr := 2, buf := [0x40000000, 0, 0, 0], freq := freqOf [(0x61, 1)], ie := 3 }
      (fun t => statusWord t = 0x000000C6 && nsymCount t.freq = 0 && nodeEntry t.node 0 = 0x80000061 &&
        t.buf = [0x40000000, 0, 0, 0] && t.ie = 3 && t.nnodes = 0 && t.wptr = 0) := by decide +kernel

/-- FQ-1. -/
theorem test_clrf : ends .clrf abraCt (fun t => nsymCount t.freq = 0 && t.tv) := by decide +kernel

/-- FQ-3, FQ-4. -/
theorem test_cnt :
    ends (.cnt 0x61) { st0 with freq := freqOf [(0x61, 0xFFFFFFFE)] }
      (fun t => symEntry t.freq 0x61 = 0xFFFFFFFF && statusWord t = 0x000000C2) ∧
    ends (.cnt 0x61) { st0 with freq := freqOf [(0x61, 0xFFFFFFFF)] }
      (fun t => symEntry t.freq 0x61 = 0xFFFFFFFF && statusWord t = 0x000400C6) := by decide +kernel

/-- FQ-7. -/
theorem test_cnt_range : ends (.cnt 256) st0 (fun t => statusWord t = 0x000200C6 && symEntry t.freq 0 = 0) := by decide +kernel

/-- FQ-2. -/
theorem test_wrf : ends (.wrf 0x61) { st0 with freq := freqOf [(0x61, 2), (0x62, 1)] }
    (fun t => symEntry t.freq 0x61 = 0 && nsymCount t.freq = 1) := by decide +kernel

/-- FQ-5, FQ-6. -/
theorem test_rdf :
    ends (.rdf 0x61) { st0 with freq := freqOf [(0x61, 0xFFFFFFFF)], err := true }
      (fun t => t.data0 = 0xFFFFFFFF && statusWord t = 0x000000C6) ∧
    ends (.rdf 0x7A) { st0 with data0 := 9 } (fun t => t.data0 = 0) := by decide +kernel

/-- TB-3. -/
theorem test_build_abracadabra :
    ends .build { st0 with freq := abraCt.freq }
      (fun t => (List.range 10).all (fun i => nodeEntry t.node i = nodeEntry abraCt.node i &&
        nodeEntry t.nw i = nodeEntry abraCt.nw i) && t.root = 8 && t.nnodes = 9 && t.dnode = 8 && t.tv && !t.ctv) := by decide +kernel

/-- TB-5: the tie goes to the lower index; TB-10: OVERFLOW. -/
theorem test_build_corners :
    ends .build { st0 with freq := freqOf [(0x61, 2), (0x62, 1)] } (fun t => nodeEntry t.node 2 = 0x00000001) ∧
    ends .build { st0 with freq := freqOf [(0x61, 0xFFFFFFFF), (0x62, 1)] }
      (fun t => statusWord t = 0x000400C6 && !t.tv) := by decide +kernel

/-- TL-1, TL-2. -/
theorem test_rdn :
    ends (.rdn 8) abraCt (fun t => t.data0 = 0x00070000 && t.data1 = 11) ∧
    ends (.rdn 511) st0 (fun t => statusWord t = 0x000200C6) := by decide +kernel

/-- TL-3. -/
theorem test_wrn : ends (.wrn 2) { abraCt with data0 := 0x80000063, data1 := 1 }
    (fun t => nodeEntry t.node 2 = 0x80000063 && nodeEntry t.nw 2 = 1 && !t.tv && !t.ctv &&
      symEntry t.codes 0x61 = clearedEntry && t.root = 8 && t.dnode = 8) := by
  decide +kernel

/-- TL-4, TL-5. -/
theorem test_setroot :
    ends .setroot { st0 with data0 := 0x1FF, data1 := 3 } (fun t => errNumber t.errcode = 2 && t.root = 0) ∧
    ends .setroot { st0 with data0 := 510, data1 := 511 } (fun t => t.root = 510 && t.nnodes = 511 && t.dnode = 510) := by
  decide +kernel

/-- TL-7, TL-10. -/
theorem test_tchk :
    ends .tchk { abSt with tv := false } (fun t => t.tv && t.dnode = 2 && errNumber t.errcode = 0) ∧
    ends .tchk { abSt with tv := false, node := nodesOf [0x80000061, 0x80000062, 0] }
      (fun t => !t.tv && errNumber t.errcode = 9) := by decide +kernel

/-- CT-2, CT-8. -/
theorem test_genc :
    ends .genc { abraCt with codes := clearedTable, ctv := false } (fun t =>
      [0x61, 0x62, 0x63, 0x64, 0x72, 0x7A].all (fun x => symEntry t.codes x = symEntry abraCt.codes x) && t.ctv) ∧
    ends .genc (caterpillar 66) (fun t => errNumber t.errcode = 10 && !t.ctv) := by decide +kernel

/-- CT-6 for "ab": a = 0, b = 1. -/
theorem test_genc_ab :
    symEntry abCt.codes 0x61 = { cv := true, clen := 1, cval := 0 } ∧
    symEntry abCt.codes 0x62 = { cv := true, clen := 1, cval := 1 } ∧ symEntry abCt.codes 0x63 = clearedEntry := by
  decide +kernel

/-- CT-3 ('b'), CT-7 (symbol 63 of K65). -/
theorem test_rdc :
    ends (.rdc 0x62) abraCt (fun t => t.data0 = 6 && t.data1 = 0 && t.data2 = 0x80000003) ∧
    ends .genc (caterpillar 65) (fun t => ends (.rdc 63) t
      (fun u => u.data0 = 0xFFFFFFFE && u.data1 = 0xFFFFFFFF && u.data2 = 0x80000040)) := by decide +kernel

/-- SB-1. -/
theorem test_clrb : ends .clrb { st0 with buf := [1, 2, 3, 4], wptr := 9, rptr := 3 }
    (fun t => t.buf = [0, 0, 0, 0] && t.wptr = 0 && t.rptr = 0 && statusWord t = 0x000000C2) := by decide +kernel

/-- SB-2 to SB-4, at the capacity of 4 words. -/
theorem test_setw :
    ends .setw { st0 with data0 := 128 } (fun t => t.wptr = 128) ∧
    ends .setw { st0 with data0 := 129 } (fun t => t.wptr = 0 && errNumber t.errcode = 2) := by decide +kernel

/-- SB-4, SB-9. -/
theorem test_setr :
    ends .setr { st0 with wptr := 23, data0 := 5 } (fun t => t.rptr = 5) ∧
    ends .setr { st0 with wptr := 23, data0 := 24 } (fun t => t.rptr = 0 && errNumber t.errcode = 2) := by decide +kernel

/-- SB-6, SB-7, at the last of 4 words. -/
theorem test_wrb_rdb :
    ends (.wrb 3) { st0 with data0 := 0xDEADBEEF } (fun t => t.buf = [0, 0, 0, 0xDEADBEEF]) ∧
    ends (.rdb 3) { st0 with buf := [1, 2, 3, 0xDEADBEEF] } (fun t => t.data0 = 0xDEADBEEF) ∧
    ends (.wrb 4) st0 (fun t => errNumber t.errcode = 2) ∧ ends (.rdb 4) st0 (fun t => errNumber t.errcode = 2) := by
  decide +kernel

/-- EN-5; EN-6, at the end of 4 words. -/
theorem test_enc :
    ends (.enc 0x62) abraCt (fun t => t.wptr = 3 && t.buf = [0xC0000000, 0, 0, 0]) ∧
    ends (.enc 0x62) { abraCt with wptr := 126 } (fun t => t.wptr = 126 && errNumber t.errcode = 7 && t.buf = abraCt.buf) := by
  decide +kernel

/-- EN-9: a 64-bit code over three words. -/
theorem test_enc_long : ends .genc { caterpillar 65 with wptr := 16 } (fun t => ends (.enc 64) t
    (fun u => u.wptr = 80 && u.buf = [0x0000FFFF, 0xFFFFFFFF, 0xFFFF0000, 0])) := by decide +kernel

/-- DC-9, DC-2. -/
theorem test_drst :
    ends .drst { abraCt with dnode := 7 } (fun t => t.dnode = 8) ∧ ends .drst st0 (fun t => errNumber t.errcode = 0) := by
  decide +kernel

/-- DC-7, DC-3. -/
theorem test_dbit :
    ends (.dbit 0) { abraCt with dnode := 6 } (fun t => t.data0 = 0x62 && t.dnode = 8 && statusWord t = 0x000000FA) ∧
    ends (.dbit 1) aCt (fun t => statusWord t = 0x000800F6 && t.dnode = 0 && t.data0 = 0) := by decide +kernel

/-- DC-2: RANGE is checked before NOTREE. -/
theorem test_dbit_range : ends (.dbit 2) st0 (fun t => errNumber t.errcode = 2) := by decide +kernel

/-- DC-10, DC-11. -/
theorem test_decs :
    ends .decs { abraCt with buf := [0xC0000000, 0, 0, 0], wptr := 2, data0 := 2 }
      (fun t => !t.symv && t.rptr = 2 && t.dnode = 6 && t.data0 = 2) ∧
    ends .decs { abraCt with buf := [0xC0000000, 0, 0, 0], wptr := 3, rptr := 2, dnode := 6, err := true }
      (fun t => t.data0 = 0x62 && t.rptr = 3 && t.dnode = 8 && statusWord t = 0x000000FE) := by decide +kernel

/-- DC-6: the 1-bit at a single leaf. -/
theorem test_decs_single_leaf : ends .decs { aCt with buf := [0x40000000, 0, 0, 0], wptr := 2, rptr := 1, err := true }
    (fun t => statusWord t = 0x000800B6 && t.rptr = 1 && t.dnode = 0) := by decide +kernel

/-- DC-8, DC-9. -/
theorem test_dend :
    ends .dend { abraCt with dnode := 7, err := true } (fun t => statusWord t = 0x00080076 && t.dnode = 7) ∧
    ends .dend { abraCt with err := true } (fun t => statusWord t = 0x000000F6) := by decide +kernel

/-! ## Witnesses: a state and operands that meet all hypotheses of each statement, clause by clause -/

/-- All leaves reached from node `i` lie at depth `n` or less below it and have property `q`. -/
def leavesWithin (node : Vector Word 511) (q : Nat → Bool) : Nat → Nat → Bool
  | 0, i => isLeafWord (nodeEntry node i) && q i
  | n + 1, i =>
    if isLeafWord (nodeEntry node i) then q i
    else leavesWithin node q n (leftField (nodeEntry node i)).toNat &&
      leavesWithin node q n (rightField (nodeEntry node i)).toNat

theorem leavesWithin_sound {node : Vector Word 511} {q : Nat → Bool} {n i k : Nat} {p : List Bool}
    (h : leavesWithin node q n i = true) (hf : follow node i p = some k) (hl : leafNode node k) :
    p.length ≤ n ∧ q k = true := by
  induction p generalizing n i with
  | nil =>
    obtain rfl : i = k := by simpa [follow] using hf
    cases n <;> simp_all [leavesWithin]
  | cons b p ih =>
    rw [follow] at hf
    by_cases hi : isLeafWord (nodeEntry node i) = true
    · simp [hi] at hf
    · cases n with
      | zero => simp [leavesWithin, hi] at h
      | succ n =>
        simp only [hi] at hf
        rw [leavesWithin] at h
        simp only [hi, Bool.false_eq_true, if_false, Bool.and_eq_true] at h
        cases b
        · have := ih (n := n) h.1 (by simpa [childField] using hf)
          exact ⟨Nat.succ_le_succ this.1, this.2⟩
        · have := ih (n := n) h.2 (by simpa [childField] using hf)
          exact ⟨Nat.succ_le_succ this.1, this.2⟩

theorem exists_next {i : Instr} {s : State} {p : State → Bool} (h : ends i s p = true) :
    ∃ t, exec i s = .next t ∧ p t = true := by
  unfold ends at h
  split at h
  · exact ⟨_, by assumption, h⟩
  · cases h

theorem exists_step {s : State} {p : State → Bool} (h : steps s p = true) : ∃ t, step s = .next t ∧ p t = true := by
  unfold steps at h
  split at h
  · exact ⟨_, by assumption, h⟩
  · cases h

theorem witness_EncodeOfDecodeIsTheWord : decode 0x6100FFFF = some (.dbit 0xFFFF) := by decide

theorem witness_WordsDecodeByTheOpcodeTable :
    decode 0x6100FFFF = some (.dbit 0xFFFF) ∧ ("DBIT", 0x61000000, 0xFFFF0000) ∈ opcodeRows ∧
    0x6100FFFF#32 &&& 0xFFFF0000 = 0x61000000 := by decide

theorem witness_StepRunsThePendingCommand :
    ((pending 0x63000000 st0).busy = true ∧ decode (pending 0x63000000 st0).pend = some .dend ∧
      (pending 0x63000000 st0).events = []) ∧
    (withEvent .engine (pending 0x63000000 st0)).busy = true ∧
    (withEvent .engine (pending 0x63000000 st0)).events = .engine :: [] ∧
    st0.busy = false ∧ nextEvent st0 = .engine := by decide +kernel

/-- One state for each way a word is ILLEGAL: OP, RSV, ARG. -/
theorem witness_IllegalWordCompletesWithIllegal :
    (pending 0 st0).busy = true ∧ (withEvent .engine (pending 0 st0)).events = .engine :: [] ∧
    IllegalWord 0x64000000 ∧ IllegalWord 0x11010061 ∧ IllegalWord 0x00000001 :=
  ⟨rfl, rfl, .inl (by decide), .inr (.inl (by decide)), .inr (.inr (by decide))⟩

theorem witness_ResetEventGivesTheResetState : (withEvent .reset abCt).events = .reset :: [] := rfl

theorem witness_ResetValues : powerOn 65536 3 = powerOn 65536 3 := rfl

theorem witness_CmdWriteIsAcceptedOrDropped :
    (withEvent (.write 0x04 4 0x10000000) st0).events = .write 0x04 4 0x10000000 :: [] ∧ st0.busy = false ∧
    (withEvent (.write 0x04 4 0) (pending 0x10000000 st0)).events = .write 0x04 4 0 :: [] ∧
    (pending 0x10000000 st0).busy = true := ⟨rfl, rfl, rfl, rfl⟩

theorem witness_DataWriteReachesItsRegisterOrIsDropped :
    ((pending 0 st0).busy = true ∧ ∀ off ∈ [0x0C, 0x10, (0x14 : BitVec 8)],
      (withEvent (.write off 4 5) (pending 0 st0)).events = .write off 4 5 :: []) ∧
    (st0.busy = false ∧ ∀ off ∈ [0x0C, 0x10, (0x14 : BitVec 8)],
      (withEvent (.write off 4 5) st0).events = .write off 4 5 :: []) := by decide +kernel

theorem witness_StatusAndIeWrites :
    (withEvent (.write 0x08 4 0x106) st0).events = .write 0x08 4 0x106 :: [] ∧
    (withEvent (.write 0x30 4 0xFFFFFFFF) st0).events = .write 0x30 4 0xFFFFFFFF :: [] := ⟨rfl, rfl⟩

theorem witness_OtherWritesAreIgnored : ∀ off ∈ [0x00, 0x18, 0x2C, 0x38, 0x3C, (0xFC : BitVec 8)],
    (withEvent (.write off 4 1) st0).events = .write off 4 1 :: [] ∧ off.toNat % 4 = 0 ∧
    off ∉ [0x04, 0x08, 0x0C, 0x10, 0x14, (0x30 : BitVec 8)] := by decide +kernel

theorem witness_IllegalAccessGetsTheBusError :
    (1 ≠ 4 ∧ (withEvent (.read 0x00 1) st0).events = .read 0x00 1 :: []) ∧
    ((0xFF : BitVec 8).toNat % 4 ≠ 0 ∧ (withEvent (.write 0xFF 4 0) st0).events = .write 0xFF 4 0 :: []) := by
  decide +kernel

theorem witness_ReadReturnsTheRegisterAtItsOffset : ∀ off ∈ [0x00, 0x38, 0x3C, (0xFC : BitVec 8)],
    (withEvent (.read off 4) st0).events = .read off 4 :: [] ∧ off.toNat % 4 = 0 := by decide +kernel

/-- A STATUS write of DONE and ERR, an IE write of 0, an accepted CMD write, a reset. -/
theorem witness_InterruptLineFollowsStatusAndIe :
    (∃ t, step (withEvent (.write 0x08 4 0x6) { st0 with ie := 3, done := true, err := true }) = .next t) ∧
    (0x6 : Word).getLsbD 1 = true ∧ (0x6 : Word).getLsbD 2 = true ∧
    (∃ t, step (withEvent (.write 0x30 4 0) { st0 with ie := 3, done := true }) = .next t) ∧
    (0 : Word).getLsbD 0 = false ∧ (0 : Word).getLsbD 1 = false ∧
    (∃ t, step (withEvent (.write 0x04 4 0) { st0 with ie := 3, done := true }) = .next t) ∧
    st0.busy = false ∧ st0.err = false ∧
    (∃ t, step (withEvent .reset { st0 with ie := 3, done := true }) = .next t) :=
  ⟨⟨_, rfl⟩, rfl, rfl, ⟨_, rfl⟩, rfl, rfl, ⟨_, rfl⟩, rfl, rfl, ⟨_, rfl⟩⟩

/-- Acceptance, completion, reset, a STATUS write and an event that writes neither bit. -/
theorem witness_BusyAndDoneAreWrittenOnlyAsStated :
    (st0.busy = false ∧ ∃ t, step (withEvent (.write 0x04 4 0) st0) = .next t) ∧
    ((pending 0 st0).busy = true ∧ ∃ t, step (withEvent .engine (pending 0 st0)) = .next t) ∧
    (∃ t, step (withEvent .reset (pending 0 st0)) = .next t) ∧
    (∃ t, step (withEvent (.write 0x08 4 0x2) { st0 with done := true }) = .next t) ∧
    (∃ t, step (withEvent (.read 0x08 4) { st0 with done := true }) = .next t) :=
  ⟨⟨rfl, _, rfl⟩, ⟨rfl, _, rfl⟩, ⟨_, rfl⟩, ⟨_, rfl⟩, ⟨_, rfl⟩⟩

/-- A failing completion; ERR set before, cleared by the host and by reset; LOST 0 and 1. -/
theorem witness_ErrAndLostAreStickyUntilClearedByTheHost :
    (∃ t, step (withEvent .engine (pending 0x20000000 st0)) = .next t ∧ (!st0.err && t.err && t.errcode != .ok) = true) ∧
    (∃ t, step (withEvent (.write 0x08 4 0x104) { st0 with err := true, lost := true }) = .next t ∧
      (!t.err && !t.lost) = true) ∧
    (∃ t, step (withEvent .reset { st0 with err := true, lost := true }) = .next t ∧ (!t.err && !t.lost) = true) ∧
    (∃ t, step (withEvent (.write 0x14 4 5) (pending 0 st0)) = .next t ∧ t.lost = true) :=
  ⟨exists_step (by decide +kernel), exists_step (by decide +kernel), exists_step (by decide +kernel),
    exists_step (by decide +kernel)⟩

theorem witness_HostCannotDisturbAPendingCommand :
    (∃ t, step (withEvent (.write 0x10 4 5) (pending 0x20000000 st0)) = .next t) ∧ (pending 0x20000000 st0).busy = true ∧
    nextEvent (withEvent (.write 0x10 4 5) (pending 0x20000000 st0)) = .write 0x10 4 5 := ⟨⟨_, rfl⟩, rfl, rfl⟩

theorem witness_StepKeepsTheBufferSize : ∃ t, step (withEvent .reset abCt) = .next t := ⟨_, rfl⟩

/-- BUILD and GENC succeed, SETROOT invalidates, CNT leaves both flags. -/
theorem witness_ValidityFlagsAreWrittenOnlyAsStated :
    (∃ t, exec .build { abCt with freq := freqOf [(0x61, 1)] } = .next t ∧ (t.tv && !t.ctv && t.errcode == .ok) = true) ∧
    (∃ t, exec .genc abSt = .next t ∧ (t.ctv && t.errcode == .ok) = true) ∧
    (∃ t, exec .setroot { abCt with data1 := 1 } = .next t ∧ (!t.tv && !t.ctv && t.errcode == .ok) = true) ∧
    (∃ t, exec (.cnt 0) abCt = .next t ∧ (t.tv && t.ctv) = true) :=
  ⟨exists_next (by decide +kernel), exists_next (by decide +kernel), exists_next (by decide +kernel),
    exists_next (by decide +kernel)⟩

theorem witness_DataRegistersAreWrittenOnlyByTheirCommands :
    (∃ t, exec (.rdn 0) abSt = .next t ∧ (t.data0 != abSt.data0 && t.data1 != abSt.data1) = true) ∧
    (∃ t, exec (.dbit 0) abSt = .next t ∧ (t.data0 != abSt.data0 && t.symv) = true) ∧
    (∃ t, exec (.rdc 0x61) abCt = .next t ∧ (t.data2 != abCt.data2) = true) :=
  ⟨exists_next (by decide +kernel), exists_next (by decide +kernel), exists_next (by decide +kernel)⟩

/-- Each array and pointer changed by a command. -/
theorem witness_ArraysAndPointersAreWrittenOnlyByTheirCommands :
    (∃ t, exec (.cnt 0) st0 = .next t ∧ (symEntry t.freq 0 != symEntry st0.freq 0) = true) ∧
    (∃ t, exec (.wrn 0) { st0 with data0 := 1 } = .next t ∧ (nodeEntry t.node 0 != nodeEntry st0.node 0) = true) ∧
    (∃ t, exec .genc abSt = .next t ∧ (symEntry t.codes 0x61 != symEntry abSt.codes 0x61) = true) ∧
    (∃ t, exec (.enc 0x62) abCt = .next t ∧ (t.buf != abCt.buf && t.wptr != abCt.wptr) = true) ∧
    (∃ t, exec .setroot { st0 with data0 := 510, data1 := 511 } = .next t ∧
      (t.root != st0.root && t.nnodes != st0.nnodes && t.dnode != st0.dnode) = true) ∧
    (∃ t, exec .setr { st0 with wptr := 1, data0 := 1 } = .next t ∧ (t.rptr != st0.rptr) = true) :=
  ⟨exists_next (by decide +kernel), exists_next (by decide +kernel), exists_next (by decide +kernel),
    exists_next (by decide +kernel), exists_next (by decide +kernel), exists_next (by decide +kernel)⟩

theorem witness_EveryCommandCompletesAndAFailureChangesNothingElse :
    (∃ t, exec .nop st0 = .next t ∧ (t.errcode == .ok) = true) ∧
    (∃ t, exec .build st0 = .next t ∧ (t.errcode != .ok) = true) :=
  ⟨exists_next (by decide +kernel), exists_next (by decide +kernel)⟩

theorem witness_CommandsRaiseOnlyTheirErrors : ∃ t, exec .genc (caterpillar 66) = .next t := ⟨_, rfl⟩

theorem witness_SymvMeansADecodedSymbol : ∃ t, exec (.dbit 0) abSt = .next t ∧ t.symv = true :=
  exists_next (by decide +kernel)

/-- One for each operand kind, at the first value outside it. -/
theorem witness_ArgOutsideItsKindIsRange :
    ∀ i ∈ [Instr.cnt 256, .wrf 256, .rdf 256, .rdc 256, .enc 256, .rdn 511, .wrn 511, .wrb 4, .rdb 4, .dbit 2],
      i.wellFormed st0.buf.length = false := by decide +kernel

theorem witness_CntCountsOneSymbolAndNeverWraps :
    (0xFF : BitVec 16).toNat < 256 ∧
    (freqOf [(0xFF, 0xFFFFFFFE)])[(0xFF : BitVec 16).toNat] ≠ 0xFFFFFFFF ∧
    (freqOf [(0xFF, 0xFFFFFFFF)])[(0xFF : BitVec 16).toNat] = 0xFFFFFFFF := by decide +kernel

theorem witness_WrfWritesAndRdfReadsOneCount : (0xFF : BitVec 16).toNat < 256 := by decide

theorem witness_FrequencyCommandsLeaveTheTree :
    (∀ i ∈ [Instr.clrf, .cnt 255, .wrf 255, .rdf 256], i.mnemonic ∈ ["CLRF", "CNT", "WRF", "RDF"]) ∧
    ∃ t, exec (.cnt 255) abCt = .next t := ⟨by decide, _, rfl⟩


theorem exactTotal_eq (freq : Vector Word 256) : exactTotal freq = freqTotal freq := by
  unfold exactTotal freqTotal
  congr 1
  apply List.ext_getElem <;> simp

theorem exactTotal_replicate (c : Word) : exactTotal (Vector.replicate 256 c) = 256 * c.toNat := by
  simp only [exactTotal, Vector.getElem_replicate, List.map_const', List.sum_replicate, List.length_finRange, smul_eq_mul]

theorem leafSymbols_replicate {c : Word} (h : c ≠ 0) : leafSymbols (Vector.replicate 256 c) = List.finRange 256 := by
  simpa [leafSymbols] using h

/-- Every counter 0; a total of 2^32, the first above the bound. -/
theorem witness_BuildRefusesEmptyAndOverflow :
    (∀ x : Fin 256, (Vector.replicate 256 (0 : Word))[x.val] = 0) ∧
    0xFFFFFFFF < exactTotal (Vector.replicate 256 0x01000000) := by
  refine ⟨by simp, ?_⟩
  rw [exactTotal_replicate]
  decide

/-- A total exactly at the bound (TB-11); every counter 1 (TB-12), with the last leaf; in the tree of "abracadabra" a key
that waits while the first merge takes the leaves 2 and 3. -/
theorem witness_BuildMergesTheTwoLeastKeys :
    exactTotal (freqOf [(0x61, 0x80000000), (0x62, 0x7FFFFFFF)]) = 0xFFFFFFFF ∧
    (256 = (leafSymbols (Vector.replicate 256 1)).length ∧ 256 ≠ 0 ∧ exactTotal (Vector.replicate 256 1) ≤ 0xFFFFFFFF ∧
      (leafSymbols (Vector.replicate 256 1))[255]? = some 255 ∧ 510 < 2 * 256 - 1) ∧
    InQueue abraCt.node 5 5 0 ∧ (0 : Nat) ≠ 2 ∧ (0 : Nat) ≠ 3 := by
  refine ⟨?_, ?_, ⟨by decide, fun j h h' => absurd h' (by omega)⟩, by decide, by decide⟩
  · rw [exactTotal_eq]
    decide +kernel
  · rw [leafSymbols_replicate (by decide), exactTotal_replicate]
    simp

theorem witness_BuiltTreeIsWellFormed :
    ∃ t, exec .build { st0 with freq := abraCt.freq } = .next t ∧ (t.errcode == .ok) = true :=
  exists_next (by decide +kernel)

/-- Two states with the same counters and different trees. -/
theorem witness_BuildDependsOnFreqAlone :
    { abSt with freq := freqOf [(0x61, 4)] }.freq = { st0 with freq := freqOf [(0x61, 4)] }.freq ∧
    (∃ t, exec .build { abSt with freq := freqOf [(0x61, 4)] } = .next t ∧ (t.errcode == .ok) = true) ∧
    (∃ t, exec .build { st0 with freq := freqOf [(0x61, 4)] } = .next t ∧ (t.errcode == .ok) = true) :=
  ⟨rfl, exists_next (by decide +kernel), exists_next (by decide +kernel)⟩

theorem witness_RdnReadsAndWrnWritesANode : (510 : BitVec 16).toNat < 511 := by decide

/-- The greatest values SETROOT accepts, and the least it refuses. -/
theorem witness_SetrootSetsRootAndCount :
    ((510 : Word).toNat ≤ 510 ∧ (511 : Word) ≠ 0 ∧ (511 : Word).toNat ≤ 511) ∧
    510 < (511 : Word).toNat ∧ (0 : Word) = 0 ∧ 511 < (512 : Word).toNat := by decide

theorem witness_TchkAcceptsExactlyWellFormedTrees :
    wellFormedTree abSt.node abSt.root.toNat abSt.nnodes.toNat = true ∧
    wellFormedTree st0.node st0.root.toNat st0.nnodes.toNat = false := by decide +kernel

/-- K65, whose deepest leaf lies at depth 64: a leaf at that depth, no leaf deeper, and no leaf with symbol 65. -/
theorem witness_GencGivesEveryLeafItsPath_tree :
    (caterpillar 65).tv = true ∧
    wellFormedTree (caterpillar 65).node (caterpillar 65).root.toNat (caterpillar 65).nnodes.toNat = true ∧
    ¬ leafNode (caterpillar 65).node (caterpillar 65).root.toNat ∧
    (∀ p i, follow (caterpillar 65).node (caterpillar 65).root.toNat p = some i → leafNode (caterpillar 65).node i →
      p.length ≤ 64) ∧
    follow (caterpillar 65).node (caterpillar 65).root.toNat (List.replicate 64 true) = some 64 ∧
    leafNode (caterpillar 65).node 64 ∧
    (∀ p i, follow (caterpillar 65).node (caterpillar 65).root.toNat p = some i → leafNode (caterpillar 65).node i →
      (symField (nodeEntry (caterpillar 65).node i)).toNat ≠ 65) := by
  have h : leavesWithin (caterpillar 65).node
      (fun i => (symField (nodeEntry (caterpillar 65).node i)).toNat != 65) 64 (caterpillar 65).root.toNat = true := by
    decide +kernel
  refine ⟨rfl, by decide +kernel, by decide +kernel, fun p i hf hl => (leavesWithin_sound h hf hl).1, by decide +kernel,
    by decide +kernel, fun p i hf hl => ?_⟩
  simpa using (leavesWithin_sound h hf hl).2

theorem witness_GencGivesEveryLeafItsPath_singleLeaf :
    aCt.tv = true ∧ wellFormedTree aCt.node aCt.root.toNat aCt.nnodes.toNat = true ∧ leafNode aCt.node aCt.root.toNat := by
  decide +kernel

/-- K66: a leaf at depth 65. -/
theorem witness_GencRefusesNoTreeAndDeepLeaves :
    st0.tv = false ∧ (caterpillar 66).tv = true ∧
    ∃ p i, follow (caterpillar 66).node (caterpillar 66).root.toNat p = some i ∧ leafNode (caterpillar 66).node i ∧
      64 < p.length :=
  ⟨rfl, rfl, List.replicate 65 true, 65, by decide +kernel⟩

theorem witness_RdcReadsOneCode : (0xFF : BitVec 16).toNat < 256 := by decide

theorem genCodes_tableOf {node : Vector Word 511} {root : Nat} {codes : Vector CodeEntry 256}
    (hc : codes = tableOf node root) (h : (genCodes node root).isOk = true) : genCodes node root = .ok codes := by
  subst hc
  unfold tableOf
  cases hg : genCodes node root with
  | error c => simp [hg, Except.isOk, Except.toBool] at h
  | ok table => rfl

/-- The tree "ab" with its code table meets the invariants. -/
theorem abCt_inv : Inv abCt where
  tree _ := by decide +kernel
  table := by
    rw [TableIsOfTheTree, if_pos (show abCt.ctv = true from rfl)]
    exact ⟨rfl, genCodes_tableOf (by simp only [abCt]) (by decide +kernel)⟩
  pointers := by unfold PointersInBounds; decide +kernel
  walk _ := .inl rfl
  pending h := by simp [abCt, abSt, st0, powerOn] at h

theorem witness_CodesArePrefixFree :
    (Inv abCt ∧ ∃ t, exec .genc abCt = .next t ∧ (t.errcode == .ok) = true) ∧
    abCt.ctv = true ∧ (0x61 : Fin 256) ≠ 0x62 ∧ abCt.codes[(0x61 : Fin 256).val].cv = true ∧
    abCt.codes[(0x62 : Fin 256).val].cv = true :=
  ⟨⟨abCt_inv, exists_next (by decide +kernel)⟩, by decide +kernel⟩

/-- WPTR = CAP_BITS = 128 and RPTR = 5: each pointer at its bounds, and one past them. -/
theorem witness_SetwAndSetrMoveThePointers :
    Memory.wf st0.buf = true ∧
    ((128 : Word).toNat ≤ 32 * st0.buf.length ∧ (5 : BitVec 22).toNat ≤ (5 : Word).toNat) ∧
    32 * st0.buf.length < (129 : Word).toNat ∧ (4 : Word).toNat < (5 : BitVec 22).toNat ∧
    (128 : Word).toNat ≤ (128 : BitVec 22).toNat ∧ (128 : BitVec 22).toNat < (129 : Word).toNat := by decide +kernel

theorem witness_WrbAndRdbAccessOneBufferWord : (3 : BitVec 16).toNat < st0.buf.length := by decide +kernel

/-- A code that just fits, no code, no table, and a code that does not fit. -/
theorem witness_EncAppendsTheCode :
    (0x61 : BitVec 16).toNat < 256 ∧ abCt.ctv = true ∧ abCt.codes[(0x61 : BitVec 16).toNat].cv = true ∧
    abCt.codes[(0x61 : BitVec 16).toNat].clen.toNat ≤ 64 ∧
    127 + abCt.codes[(0x61 : BitVec 16).toNat].clen.toNat ≤ 32 * abCt.buf.length ∧
    abCt.codes[(0x63 : BitVec 16).toNat].cv = false ∧ abSt.ctv = false ∧
    32 * abCt.buf.length < 128 + abCt.codes[(0x61 : BitVec 16).toNat].clen.toNat := by decide +kernel

theorem exists_runAll {is : List Instr} {s : State} (h : (runAll is s).isSome = true) : ∃ t, runAll is s = some t :=
  Option.isSome_iff_exists.mp h

theorem witness_EncodedSequenceIsTheCodesInOrder :
    Inv abCt ∧ ∃ t, runAll ([0x61, 0x62, (0x61 : Sym)].map fun x => Instr.enc (x.setWidth 16)) abCt = some t :=
  ⟨abCt_inv, exists_runAll (by decide +kernel)⟩

theorem witness_DrstRestartsAndDendChecksTheWalk :
    st0.tv = false ∧ ({ abraCt with dnode := 7 } : State).tv = true ∧
    ({ abraCt with dnode := 7 } : State).dnode ≠ ({ abraCt with dnode := 7 } : State).root ∧
    abraCt.tv = true ∧ abraCt.dnode = abraCt.root := by decide +kernel

/-- No tree; a single leaf; a bit that reaches a leaf; a bit that reaches an internal node. -/
theorem witness_DbitAppliesOneBit :
    st0.tv = false ∧ (aCt.tv = true ∧ leafNode aCt.node aCt.dnode.toNat) ∧
    (abraCt.tv = true ∧ ¬ leafNode abraCt.node abraCt.dnode.toNat) ∧
    (follow abraCt.node abraCt.dnode.toNat [false] = some 0 ∧ leafNode abraCt.node 0) ∧
    (follow abraCt.node abraCt.dnode.toNat [true] = some 7 ∧ ¬ leafNode abraCt.node 7) := by decide +kernel

/-- No tree; an empty stream; a single leaf with bits left; a whole code (b = 110); a partial code (11). -/
theorem witness_DecsDecodesOneSymbol :
    st0.rptr.toNat ≤ st0.wptr.toNat ∧ st0.tv = false ∧
    (abraCt.rptr.toNat ≤ abraCt.wptr.toNat ∧ abraCt.tv = true ∧ abraCt.rptr = abraCt.wptr) ∧
    (aCt.tv = true ∧ leafNode aCt.node aCt.dnode.toNat ∧ (0 : BitVec 22).toNat < (1 : BitVec 22).toNat) ∧
    ((0 : BitVec 22).toNat + 3 ≤ (3 : BitVec 22).toNat ∧ ¬ leafNode abraCt.node abraCt.dnode.toNat ∧
      follow abraCt.node abraCt.dnode.toNat (streamBits [0xC0000000, 0, 0, 0] (0 : BitVec 22).toNat 3) = some 1 ∧
      leafNode abraCt.node 1) ∧
    (follow abraCt.node abraCt.dnode.toNat
      (streamBits [0xC0000000, 0, 0, 0] (0 : BitVec 22).toNat ((2 : BitVec 22).toNat - (0 : BitVec 22).toNat)) = some 6 ∧
      ¬ leafNode abraCt.node 6) := by decide +kernel

theorem witness_EncodedSymbolDecodesToItself :
    Inv abCt ∧ abCt.ctv = true ∧ abCt.dnode = abCt.root ∧ abCt.rptr = abCt.wptr ∧
    ∃ s1, exec (.enc ((0x62 : Sym).setWidth 16)) abCt = .next s1 ∧ (s1.errcode == .ok) = true :=
  ⟨abCt_inv, rfl, rfl, rfl, exists_next (by decide +kernel)⟩

theorem witness_EncodedSequenceDecodesToItself :
    Inv abCt ∧ abCt.ctv = true ∧ abCt.dnode = abCt.root ∧ abCt.rptr = abCt.wptr ∧
    ∃ t, runAll ([0x61, 0x62, (0x61 : Sym)].map fun x => Instr.enc (x.setWidth 16)) abCt = some t :=
  ⟨abCt_inv, rfl, rfl, rfl, exists_runAll (by decide +kernel)⟩

theorem witness_TextRoundTripsWhenItsEncodingSucceeds :
    Inv abCt ∧ ∃ t, runAll ([.clrf] ++ ([0x61, 0x62, (0x61 : Sym)].map fun x => Instr.cnt (x.setWidth 16)) ++
      [.build, .genc, .clrb] ++ ([0x61, 0x62, (0x61 : Sym)].map fun x => Instr.enc (x.setWidth 16))) abCt = some t :=
  ⟨abCt_inv, exists_runAll (by decide +kernel)⟩

/-- The pointers at CAP_BITS, and a step from there. -/
theorem witness_StepKeepsThePointersInBounds :
    PointersInBounds { st0 with wptr := 128, rptr := 128 } ∧
    ∃ t, step (pending 0x40000000 { st0 with wptr := 128, rptr := 128 }) = .next t :=
  ⟨by unfold PointersInBounds; decide +kernel, _, rfl⟩

theorem witness_StepKeepsTheInvariants : Inv abCt ∧ ∃ t, step abCt = .next t := ⟨abCt_inv, _, rfl⟩

theorem witness_ResetStateMeetsTheInvariants : 1 ≤ 1 ∧ 1 ≤ 65536 ∧ 1 ≤ 65536 ∧ 65536 ≤ 65536 := by decide

end Sys2Proof.Machine.Tests
end

section
/-! No step changes BUF_WORDS (R7, R20, R50). A command is the completion of its pseudocode (R85), so its part of the
statement is one about runs; the bus (R65 to R70) and the hardware reset (R260) have a lemma each. -/

namespace Sys2Proof.Machine

/-! ## The pseudocode of each command (R85) -/

/-- What the pseudocode of each command comes to: `exec` is its completion (`exec_eq_finish_runOf`). -/
def runOf (i : Instr) (s : State) : Run :=
  match i with
  | .nop => quiet s
  | .init => quiet { invalidateTree (clearFreq s) with
      root := 0, nnodes := 0, dnode := 0, wptr := 0, rptr := 0, data0 := 0, data1 := 0, data2 := 0 }
  | .clrf => quiet (clearFreq s)
  | .cnt a => runCnt a s
  | .wrf a => runWrf a s
  | .rdf a => runRdf a s
  | .build => runBuild s
  | .rdn a => runRdn a s
  | .wrn a => runWrn a s
  | .setroot => runSetroot s
  | .tchk => runTchk s
  | .genc => runGenc s
  | .rdc a => runRdc a s
  | .clrb => quiet { s with buf := List.replicate s.bufWords 0, wptr := 0, rptr := 0 }
  | .setw => runSetw s
  | .setr => runSetr s
  | .wrb a => runWrb a s
  | .rdb a => runRdb a s
  | .enc a => runEnc a s
  | .drst => quiet { s with dnode := s.root }
  | .dbit a => runDbit a s
  | .decs => runDecs s
  | .dend => runDend s

theorem exec_eq_finish_runOf (i : Instr) (s : State) : exec i s = finish s (runOf i s) := by
  cases i <;> rfl

/-! ## What the walk writes (R200, R203) -/

/-- One bit of the walk moves DNODE and writes nothing else; the symbol it emits is delivered at completion. -/
theorem walkStep_writes_dnode_only {b : Bool} {s s' : State} {e : Option Sym} (h : walkStep b s = .ok (s', e)) :
    ∃ d, s' = { s with dnode := d } := by
  by_cases hl : leafNode s.node s.dnode.toNat
  · rw [walkStep_of_leaf b hl] at h
    cases b with
    | true => cases h
    | false => cases h; exact ⟨s.dnode, rfl⟩
  · have hc := follow_cons_of_internal b [] hl
    by_cases hk : leafNode s.node (childField b (nodeEntry s.node s.dnode.toNat)).toNat
    · rw [walkStep_to_leaf hl hc hk] at h
      cases h
      exact ⟨s.root, rfl⟩
    · rw [walkStep_to_internal hl hc hk] at h
      cases h
      exact ⟨_, rfl⟩

/-- The loop of DECS moves DNODE and RPTR and writes nothing else. -/
theorem decodeLoop_writes_dnode_and_rptr_only {n : Nat} {s s' : State} {e : Option Sym}
    (h : decodeLoop n s = .ok (s', e)) : ∃ d p, s' = { s with dnode := d, rptr := p } := by
  induction n generalizing s with
  | zero => cases h; exact ⟨_, _, rfl⟩
  | succ n ih =>
    rw [decodeLoop] at h
    split at h
    · cases h
    · next hw =>
      obtain ⟨d, rfl⟩ := walkStep_writes_dnode_only hw
      cases h
      exact ⟨d, s.rptr + 1, rfl⟩
    · next hw =>
      obtain ⟨d, rfl⟩ := walkStep_writes_dnode_only hw
      obtain ⟨d', p, rfl⟩ := ih h
      exact ⟨d', p, rfl⟩

/-! ## Commands keep BUF_WORDS -/

/-- The run, if it succeeds, leaves as many buffer words as `s` has. An error writes nothing (R231). -/
def KeepsBufWords (s : State) : Run → Prop
  | .ok (s1, _) => s1.buf.length = s.buf.length
  | .error _ => True

@[simp] theorem keepsBufWords_ok (s s1 : State) (e : Option Sym) :
    KeepsBufWords s (.ok (s1, e)) ↔ s1.buf.length = s.buf.length := Iff.rfl

@[simp] theorem keepsBufWords_quiet (s s1 : State) :
    KeepsBufWords s (quiet s1) ↔ s1.buf.length = s.buf.length := Iff.rfl

@[simp] theorem keepsBufWords_error (s : State) (c : ErrCode) : KeepsBufWords s (.error c) := trivial

/-- A run behind a check: what each branch comes to. -/
@[simp] theorem keepsBufWords_ite (s : State) (p : Prop) [Decidable p] (r r' : Run) :
    KeepsBufWords s (if p then r else r') ↔ (p → KeepsBufWords s r) ∧ (¬ p → KeepsBufWords s r') := by
  by_cases h : p <;> simp [h]

theorem walkStep_keepsBufWords (b : Bool) (s : State) : KeepsBufWords s (walkStep b s) := by
  cases h : walkStep b s with
  | error c => trivial
  | ok r =>
    obtain ⟨d, hd⟩ := walkStep_writes_dnode_only h
    simp [KeepsBufWords, hd]

theorem decodeLoop_keepsBufWords (n : Nat) (s : State) : KeepsBufWords s (decodeLoop n s) := by
  cases h : decodeLoop n s with
  | error c => trivial
  | ok r =>
    obtain ⟨d, p, hdp⟩ := decodeLoop_writes_dnode_and_rptr_only h
    simp [KeepsBufWords, hdp]

theorem runGenc_keepsBufWords (s : State) : KeepsBufWords s (runGenc s) := by
  cases h : genCodes s.node s.root.toNat <;> simp [runGenc, h]

theorem runRdb_keepsBufWords (a : BitVec 16) (s : State) : KeepsBufWords s (runRdb a s) := by
  cases h : s.buf[a.toNat]? <;> simp [runRdb, h]

/-- Of the 23 commands only CLRB, WRB and ENC write BUF, and none of them changes its length. -/
theorem runOf_keepsBufWords (i : Instr) (s : State) : KeepsBufWords s (runOf i s) := by
  cases i with
  | clrb => simp [runOf, State.bufWords]
  | wrb a => simp [runOf, runWrb]
  | enc a => simp [runOf, runEnc]
  | nop => simp [runOf]
  | init => simp [runOf]
  | clrf => simp [runOf]
  | drst => simp [runOf]
  | cnt a => simp [runOf, runCnt]
  | wrf a => simp [runOf, runWrf]
  | rdf a => simp [runOf, runRdf]
  | build => simp [runOf, runBuild]
  | rdn a => simp [runOf, runRdn]
  | wrn a => simp [runOf, runWrn]
  | setroot => simp [runOf, runSetroot]
  | tchk => simp [runOf, runTchk]
  | rdc a => simp [runOf, runRdc]
  | setw => simp [runOf, runSetw]
  | setr => simp [runOf, runSetr]
  | dend => simp [runOf, runDend]
  | genc => exact runGenc_keepsBufWords s
  | rdb a => exact runRdb_keepsBufWords a s
  | dbit a => simp [runOf, runDbit, walkStep_keepsBufWords]
  | decs => simp [runOf, runDecs, decodeLoop_keepsBufWords]

/-- Completion writes no buffer word (R85). -/
theorem finish_keeps_buf_length {s t : State} {r : Run} (hr : KeepsBufWords s r) (h : finish s r = .next t) :
    t.buf.length = s.buf.length := by
  obtain ⟨s1, rfl, rfl⟩ | ⟨s1, x, rfl, rfl⟩ | ⟨c, rfl, rfl⟩ := finish_cases h
  · simpa using hr
  · simpa using hr
  · simp

theorem exec_keeps_buf_length {i : Instr} {s t : State} (h : exec i s = .next t) : t.buf.length = s.buf.length := by
  rw [exec_eq_finish_runOf] at h
  exact finish_keeps_buf_length (runOf_keepsBufWords i s) h

/-! ## The events keep BUF_WORDS (R73) -/

theorem engine_keeps_buf_length {s t : State} (h : engine s = .next t) : t.buf.length = s.buf.length := by
  obtain ⟨-, rfl⟩ | ⟨-, -, rfl⟩ | ⟨-, i, -, hi⟩ := engine_cases h
  · rfl
  · simp
  · exact exec_keeps_buf_length hi

/-- The host cannot reach BUF through the window: a read changes the port's answer only (R71). -/
@[simp] theorem busRead_buf (addr : BitVec 8) (size : Nat) (s : State) : (busRead addr size s).buf = s.buf := by
  rw [busRead_eq]

/-- No register of the window is a buffer word (R22, R66 to R70). -/
@[simp] theorem writeOffset_buf (off : BitVec 8) (v : Word) (s : State) : (writeOffset off v s).buf = s.buf := by
  obtain h | ⟨-, h⟩ | ⟨-, h⟩ | ⟨-, h | h | h⟩ | h | h := writeOffset_cases off v s <;> simp [h]

@[simp] theorem busWrite_buf (addr : BitVec 8) (size : Nat) (v : Word) (s : State) :
    (busWrite addr size v s).buf = s.buf := by
  obtain ⟨-, h⟩ | ⟨-, h⟩ := busWrite_cases addr size v s <;> simp [h]

/-- A reset draws every buffer word anew (R262) and keeps their number (R7). -/
@[simp] theorem length_hardwareReset_buf (s : State) : (hardwareReset s).buf.length = s.buf.length := by
  simp [hardwareReset, powerOn, State.bufWords]

/-- Settles O21: the four kinds of event, by `step_cases`. -/
theorem stepKeepsTheBufferSize : Obligations.StepKeepsTheBufferSize := by
  intro s t h
  obtain ⟨addr, size, -, rfl⟩ | ⟨addr, size, v, -, rfl⟩ | ⟨-, he⟩ | ⟨-, rfl⟩ := step_cases h
  · simp
  · simp
  · simpa using engine_keeps_buf_length he
  · simp

end Sys2Proof.Machine
end

section
/-! What each command can answer, said once: the writes a successful one commits, the codes a failing one raises
(R85, R230, R231). The statements on what commands write, and the invariants of R53, are read off these. -/

namespace Sys2Proof.Machine

/-! ## What a successful command commits -/

/-- The guards that a successful command passed, and what it commits: its writes `s1` and the symbol `e` it emits. -/
def Commits (i : Instr) (s s1 : State) (e : Option Sym) : Prop :=
  match i with
  | .nop => e = none ∧ s1 = s
  | .init => e = none ∧ s1 = { invalidateTree (clearFreq s) with
      root := 0, nnodes := 0, dnode := 0, wptr := 0, rptr := 0, data0 := 0, data1 := 0, data2 := 0 }
  | .clrf => e = none ∧ s1 = clearFreq s
  | .cnt a => symLegal a = true ∧ symEntry s.freq (symOf a) ≠ 0xFFFFFFFF#32 ∧ e = none ∧
      s1 = { s with freq := setSymEntry s.freq (symOf a) (symEntry s.freq (symOf a) + 1) }
  | .wrf a => symLegal a = true ∧ e = none ∧ s1 = { s with freq := setSymEntry s.freq (symOf a) s.data0 }
  | .rdf a => symLegal a = true ∧ e = none ∧ s1 = { s with data0 := symEntry s.freq (symOf a) }
  | .build => nsymCount s.freq ≠ 0 ∧ freqTotal s.freq ≤ 0xFFFFFFFF ∧ e = none ∧ s1 = installTree (buildTree s) s
  | .rdn a => nodeLegal a = true ∧ e = none ∧
      s1 = { s with data0 := nodeEntry s.node (nodeOf a).toNat, data1 := nodeEntry s.nw (nodeOf a).toNat }
  | .wrn a => nodeLegal a = true ∧ e = none ∧ s1 = invalidateTree { s with
      node := setNodeEntry s.node (nodeOf a).toNat s.data0
      nw := setNodeEntry s.nw (nodeOf a).toNat s.data1 }
  | .setroot => (s.data0.toNat ≤ 510 ∧ s.data1.toNat ≠ 0 ∧ s.data1.toNat ≤ 511) ∧ e = none ∧
      s1 = { invalidateTree { s with root := s.data0.setWidth 9, nnodes := s.data1.setWidth 10 } with
        dnode := s.data0.setWidth 9 }
  | .tchk => wellFormedTree s.node s.root.toNat s.nnodes.toNat = true ∧ e = none ∧
      s1 = { s with tv := true, dnode := s.root }
  | .genc => s.tv = true ∧ ∃ table, genCodes s.node s.root.toNat = .ok table ∧ e = none ∧
      s1 = { s with codes := table, ctv := true }
  | .rdc a => symLegal a = true ∧ e = none ∧ s1 = { s with
      data0 := (symEntry s.codes (symOf a)).cval.extractLsb' 0 32
      data1 := (symEntry s.codes (symOf a)).cval.extractLsb' 32 32
      data2 := BitVec.ofBool (symEntry s.codes (symOf a)).cv ++ 0#24 ++ (symEntry s.codes (symOf a)).clen }
  | .clrb => e = none ∧ s1 = { s with buf := List.replicate s.bufWords 0, wptr := 0, rptr := 0 }
  | .setw => (s.data0.toNat ≤ s.capBits ∧ s.rptr.toNat ≤ s.data0.toNat) ∧ e = none ∧
      s1 = { s with wptr := s.data0.setWidth 22 }
  | .setr => s.data0.toNat ≤ s.wptr.toNat ∧ e = none ∧ s1 = { s with rptr := s.data0.setWidth 22 }
  | .wrb a => wordLegal s a = true ∧ e = none ∧ s1 = { s with buf := s.buf.set a.toNat s.data0 }
  | .rdb a => ∃ w, s.buf[a.toNat]? = some w ∧ e = none ∧ s1 = { s with data0 := w }
  | .enc a => symLegal a = true ∧ s.ctv = true ∧ (symEntry s.codes (symOf a)).cv = true ∧
      s.wptr.toNat + (symEntry s.codes (symOf a)).clen.toNat ≤ s.capBits ∧ e = none ∧ s1 = { s with
        buf := writeStreamBits s.buf s.wptr.toNat (codeBits (symEntry s.codes (symOf a)))
        wptr := BitVec.ofNat 22 (s.wptr.toNat + (symEntry s.codes (symOf a)).clen.toNat) }
  | .drst => e = none ∧ s1 = { s with dnode := s.root }
  | .dbit a => bitLegal a = true ∧ s.tv = true ∧ walkStep (bitOf a) s = .ok (s1, e)
  | .decs => s.tv = true ∧ decodeLoop (s.wptr.toNat - s.rptr.toNat) s = .ok (s1, e)
  | .dend => s.tv = true ∧ s.dnode = s.root ∧ e = none ∧ s1 = s

theorem quiet_eq_ok_iff {s s1 : State} {e : Option Sym} : quiet s = .ok (s1, e) ↔ e = none ∧ s1 = s := by
  simp [quiet, eq_comm, and_comm]

/-- A run behind a check succeeds when the check passes and the rest succeeds. -/
theorem guard_eq_ok_iff {p : Prop} [Decidable p] {c : ErrCode} {r : Run} {x : State × Option Sym} :
    (if p then .error c else r) = .ok x ↔ ¬ p ∧ r = .ok x := by
  by_cases h : p <;> simp [h]

theorem runGenc_eq_ok_iff {s s1 : State} {e : Option Sym} : runGenc s = .ok (s1, e) ↔ Commits .genc s s1 e := by
  cases h : genCodes s.node s.root.toNat <;> simp [runGenc, Commits, h, guard_eq_ok_iff, quiet_eq_ok_iff]

theorem runRdb_eq_ok_iff {a : BitVec 16} {s s1 : State} {e : Option Sym} :
    runRdb a s = .ok (s1, e) ↔ Commits (.rdb a) s s1 e := by
  cases h : s.buf[a.toNat]? <;> simp [runRdb, Commits, h, quiet_eq_ok_iff]

/-- A command succeeds exactly with what `Commits` says of it. -/
theorem runOf_eq_ok_iff {i : Instr} {s s1 : State} {e : Option Sym} :
    runOf i s = .ok (s1, e) ↔ Commits i s s1 e := by
  cases i with
  | nop => exact quiet_eq_ok_iff
  | init => exact quiet_eq_ok_iff
  | clrf => exact quiet_eq_ok_iff
  | clrb => exact quiet_eq_ok_iff
  | drst => exact quiet_eq_ok_iff
  | cnt a => simp [runOf, Commits, runCnt, guard_eq_ok_iff, quiet_eq_ok_iff]
  | wrf a => simp [runOf, Commits, runWrf, guard_eq_ok_iff, quiet_eq_ok_iff]
  | rdf a => simp [runOf, Commits, runRdf, guard_eq_ok_iff, quiet_eq_ok_iff]
  | build => simp [runOf, Commits, runBuild, guard_eq_ok_iff, quiet_eq_ok_iff]
  | rdn a => simp [runOf, Commits, runRdn, guard_eq_ok_iff, quiet_eq_ok_iff]
  | wrn a => simp [runOf, Commits, runWrn, guard_eq_ok_iff, quiet_eq_ok_iff]
  | setroot => simp [runOf, Commits, runSetroot, guard_eq_ok_iff, quiet_eq_ok_iff, and_assoc]
  | tchk => simp [runOf, Commits, runTchk, guard_eq_ok_iff, quiet_eq_ok_iff]
  | genc => exact runGenc_eq_ok_iff
  | rdc a => simp [runOf, Commits, runRdc, guard_eq_ok_iff, quiet_eq_ok_iff]
  | setw => simp [runOf, Commits, runSetw, guard_eq_ok_iff, quiet_eq_ok_iff]
  | setr => simp [runOf, Commits, runSetr, guard_eq_ok_iff, quiet_eq_ok_iff]
  | wrb a => simp [runOf, Commits, runWrb, guard_eq_ok_iff, quiet_eq_ok_iff]
  | rdb a => exact runRdb_eq_ok_iff
  | enc a => simp [runOf, Commits, runEnc, guard_eq_ok_iff, quiet_eq_ok_iff]
  | dbit a => simp [runOf, Commits, runDbit, guard_eq_ok_iff]
  | decs => simp [runOf, Commits, runDecs, guard_eq_ok_iff]
  | dend =>
    simp only [runOf, Commits, runDend, guard_eq_ok_iff, quiet_eq_ok_iff]
    simp

/-- Only DBIT and DECS emit a symbol (R202, R203). -/
theorem emits_only_dbit_decs {i : Instr} {s s1 : State} {x : Sym} (h : Commits i s s1 (some x)) :
    i.mnemonic ∈ ["DBIT", "DECS"] := by
  cases i <;> simp_all [Commits, Instr.mnemonic]

/-! ## The codes a failing command raises -/

theorem walkCodes_error {node : Vector Word 511} {left d i v : Nat} {table : Vector CodeEntry 256} {c : ErrCode}
    (h : walkCodes node left d i v table = .error c) : c = .codelen := by
  induction left generalizing d i v table with
  | zero =>
    unfold walkCodes at h
    split at h <;> simp_all
  | succ left ih =>
    unfold walkCodes at h
    split at h
    · cases h
    · dsimp only at h
      split at h
      · next hl =>
        cases h
        exact ih hl
      · exact ih h

theorem genCodes_error {node : Vector Word 511} {root : Nat} {c : ErrCode} (h : genCodes node root = .error c) :
    c = .codelen := by
  unfold genCodes at h
  split at h
  · cases h
  · exact walkCodes_error h

/-- One bit of the walk (R200), in its four cases: at a leaf it is refused or emits the leaf's symbol; at an internal node
it emits the symbol of a child that is a leaf and returns to ROOT, or moves down to an internal child. -/
theorem walkStep_cases (b : Bool) (s : State) :
    (b = true ∧ walkStep b s = .error .decode) ∨
      walkStep b s = .ok (s, some (symField (nodeEntry s.node s.dnode.toNat))) ∨
      ¬ leafNode s.node s.dnode.toNat ∧ ∃ c, c = childField b (nodeEntry s.node s.dnode.toNat) ∧
        ((leafNode s.node c.toNat ∧
            walkStep b s = .ok ({ s with dnode := s.root }, some (symField (nodeEntry s.node c.toNat)))) ∨
          (¬ leafNode s.node c.toNat ∧ walkStep b s = quiet { s with dnode := c })) := by
  by_cases hl : leafNode s.node s.dnode.toNat
  · rw [walkStep_of_leaf b hl]
    cases b <;> simp
  · have hc := follow_cons_of_internal b [] hl
    refine .inr (.inr ⟨hl, _, rfl, ?_⟩)
    by_cases hk : leafNode s.node (childField b (nodeEntry s.node s.dnode.toNat)).toNat
    · exact .inl ⟨hk, walkStep_to_leaf hl hc hk⟩
    · exact .inr ⟨hk, by simpa using walkStep_to_internal hl hc hk⟩

theorem walkStep_error {b : Bool} {s : State} {c : ErrCode} (h : walkStep b s = .error c) : c = .decode := by
  obtain ⟨-, hw⟩ | hw | ⟨-, _, -, ⟨-, hw⟩ | ⟨-, hw⟩⟩ := walkStep_cases b s <;> rw [hw] at h <;> cases h
  rfl

theorem decodeLoop_error {n : Nat} {s : State} {c : ErrCode} (h : decodeLoop n s = .error c) : c = .decode := by
  induction n generalizing s with
  | zero => cases h
  | succ n ih =>
    rw [decodeLoop] at h
    split at h
    · next hw =>
      cases h
      exact walkStep_error hw
    · cases h
    · exact ih h

/-- The run, if it fails, raises one of the codes `cs`. -/
def FailsOnlyWith (cs : List ErrCode) : Run → Prop
  | .error c => c ∈ cs
  | .ok _ => True

@[simp] theorem failsOnlyWith_error (cs : List ErrCode) (c : ErrCode) : FailsOnlyWith cs (.error c) ↔ c ∈ cs := Iff.rfl

@[simp] theorem failsOnlyWith_quiet (cs : List ErrCode) (s : State) : FailsOnlyWith cs (quiet s) := trivial

@[simp] theorem failsOnlyWith_ite (cs : List ErrCode) (p : Prop) [Decidable p] (r r' : Run) :
    FailsOnlyWith cs (if p then r else r') ↔ (p → FailsOnlyWith cs r) ∧ (¬ p → FailsOnlyWith cs r') := by
  by_cases h : p <;> simp [h]

theorem walkStep_failsOnlyWith {cs : List ErrCode} (h : .decode ∈ cs) (b : Bool) (s : State) :
    FailsOnlyWith cs (walkStep b s) := by
  cases hw : walkStep b s with
  | ok _ => trivial
  | error c => rwa [walkStep_error hw]

theorem decodeLoop_failsOnlyWith {cs : List ErrCode} (h : .decode ∈ cs) (n : Nat) (s : State) :
    FailsOnlyWith cs (decodeLoop n s) := by
  cases hl : decodeLoop n s with
  | ok _ => trivial
  | error c => rwa [decodeLoop_error hl]

theorem runGenc_failsOnlyWith (s : State) : FailsOnlyWith [.notree, .codelen] (runGenc s) := by
  cases hg : genCodes s.node s.root.toNat with
  | ok table => simp [runGenc, hg]
  | error c => simp [runGenc, hg, genCodes_error hg]

theorem runRdb_failsOnlyWith (a : BitVec 16) (s : State) : FailsOnlyWith [.range] (runRdb a s) := by
  cases hw : s.buf[a.toNat]? <;> simp [runRdb, hw]

/-- A command fails only with a code that R230 lists for it after the first, which is success. -/
theorem runOf_failsOnlyWith (i : Instr) (s : State) : FailsOnlyWith (possibleCodes i).tail (runOf i s) := by
  cases i with
  | nop => trivial
  | init => trivial
  | clrf => trivial
  | clrb => trivial
  | drst => trivial
  | cnt a => simp [runOf, runCnt, possibleCodes]
  | wrf a => simp [runOf, runWrf, possibleCodes]
  | rdf a => simp [runOf, runRdf, possibleCodes]
  | build => simp [runOf, runBuild, possibleCodes]
  | rdn a => simp [runOf, runRdn, possibleCodes]
  | wrn a => simp [runOf, runWrn, possibleCodes]
  | setroot => simp [runOf, runSetroot, possibleCodes]
  | tchk => simp [runOf, runTchk, possibleCodes]
  | rdc a => simp [runOf, runRdc, possibleCodes]
  | setw => simp [runOf, runSetw, possibleCodes]
  | setr => simp [runOf, runSetr, possibleCodes]
  | wrb a => simp [runOf, runWrb, possibleCodes]
  | enc a => simp [runOf, runEnc, possibleCodes]
  | dend => simp [runOf, runDend, possibleCodes]
  | genc => exact runGenc_failsOnlyWith s
  | rdb a => exact runRdb_failsOnlyWith a s
  | dbit a => simp [runOf, runDbit, possibleCodes, walkStep_failsOnlyWith]
  | decs => simp [runOf, runDecs, possibleCodes, decodeLoop_failsOnlyWith]

/-- No command raises code 0 as an error (R230). -/
theorem runOf_error_ne_ok {i : Instr} {s : State} {c : ErrCode} (h : runOf i s = .error c) : c ≠ .ok := by
  rintro rfl
  have hmem := runOf_failsOnlyWith i s
  rw [h, failsOnlyWith_error] at hmem
  cases i <;> simp [possibleCodes] at hmem

/-! ## Completion -/

/-- What a command answers (R85): it commits and emits nothing, commits and emits a symbol, or fails and leaves the state
it started from. -/
theorem exec_cases {i : Instr} {s t : State} (h : exec i s = .next t) :
    (∃ s1, Commits i s s1 none ∧ t = succeeded s1) ∨ (∃ s1 x, Commits i s s1 (some x) ∧ t = emitted x s1) ∨
      (∃ c, c ≠ .ok ∧ t = failed c s) := by
  rw [exec_eq_finish_runOf] at h
  obtain ⟨s1, hr, rfl⟩ | ⟨s1, x, hr, rfl⟩ | ⟨c, hr, -⟩ := finish_cases h
  · exact .inl ⟨s1, runOf_eq_ok_iff.mp hr, rfl⟩
  · exact .inr (.inl ⟨s1, x, runOf_eq_ok_iff.mp hr, rfl⟩)
  · rw [hr, finish_error s (runOf_error_ne_ok hr)] at h
    exact .inr (.inr ⟨c, runOf_error_ne_ok hr, by simpa using h.symm⟩)

end Sys2Proof.Machine
end

section
/-! What the commands write: TV and CTV (R31, R32), DATA0 to DATA2 (R25), the arrays and pointers (R37 to R50), SYMV (R30).
Each is read off what a successful command commits; a failed one writes the completion fields only. -/

namespace Sys2Proof.Machine

/-! ## What the writes of a successful command leave unchanged -/

/-- TV and CTV after the writes of a successful command (R31, R32). -/
def FlagsWritten (i : Instr) (s t : State) : Prop :=
  t.tv = (if i.mnemonic ∈ ["BUILD", "TCHK"] then true
    else if i.mnemonic ∈ ["WRN", "SETROOT", "INIT"] then false else s.tv) ∧
  t.ctv = (if i.mnemonic = "GENC" then true
    else if i.mnemonic ∈ ["BUILD", "WRN", "SETROOT", "INIT"] then false else s.ctv)

/-- The commands whose writes change DATA0 to DATA2 (R25); a symbol that DBIT or DECS emits is written at completion. -/
def DataWritten (i : Instr) (s t : State) : Prop :=
  (t.data0 ≠ s.data0 → i.mnemonic ∈ ["RDF", "RDN", "RDC", "RDB", "INIT"]) ∧
  (t.data1 ≠ s.data1 → i.mnemonic ∈ ["RDN", "RDC", "INIT"]) ∧
  (t.data2 ≠ s.data2 → i.mnemonic ∈ ["RDC", "INIT"])

/-- The commands that change each array and pointer, and the fields no command changes (R37 to R50, R121). -/
def ArraysWritten (i : Instr) (s t : State) : Prop :=
  (t.freq ≠ s.freq → i.mnemonic ∈ ["CLRF", "CNT", "WRF", "INIT"]) ∧
  (t.node ≠ s.node ∨ t.nw ≠ s.nw → i.mnemonic ∈ ["BUILD", "WRN"]) ∧
  (t.codes ≠ s.codes → i.mnemonic ∈ ["GENC", "BUILD", "WRN", "SETROOT", "INIT"]) ∧
  (t.buf ≠ s.buf → i.mnemonic ∈ ["ENC", "WRB", "CLRB"]) ∧
  (t.root ≠ s.root ∨ t.nnodes ≠ s.nnodes → i.mnemonic ∈ ["BUILD", "SETROOT", "INIT"]) ∧
  (t.wptr ≠ s.wptr → i.mnemonic ∈ ["ENC", "SETW", "CLRB", "INIT"]) ∧
  (t.rptr ≠ s.rptr → i.mnemonic ∈ ["DECS", "SETR", "CLRB", "INIT"]) ∧
  (t.dnode ≠ s.dnode → i.mnemonic ∈ ["BUILD", "SETROOT", "TCHK", "DRST", "INIT", "DBIT", "DECS"]) ∧
  t.ie = s.ie ∧ t.lastcmd = s.lastcmd ∧ t.lost = s.lost ∧ t.pend = s.pend ∧ t.resp = s.resp ∧
  t.events = s.events ∧ t.resets = s.resets

/-- The three statements above, together, so that the commands are gone through once; and no command writes ERR but by
failing (R29). -/
theorem Commits.writes {i : Instr} {s s1 : State} {e : Option Sym} (h : Commits i s s1 e) :
    FlagsWritten i s s1 ∧ DataWritten i s s1 ∧ ArraysWritten i s s1 ∧ s1.err = s.err := by
  unfold FlagsWritten DataWritten ArraysWritten
  cases i with
  | nop => obtain ⟨-, rfl⟩ := h; simp [Instr.mnemonic]
  | init => obtain ⟨-, rfl⟩ := h; simp [Instr.mnemonic]
  | clrf => obtain ⟨-, rfl⟩ := h; simp [Instr.mnemonic]
  | clrb => obtain ⟨-, rfl⟩ := h; simp [Instr.mnemonic]
  | drst => obtain ⟨-, rfl⟩ := h; simp [Instr.mnemonic]
  | cnt a => obtain ⟨-, -, -, rfl⟩ := h; simp [Instr.mnemonic]
  | wrf a => obtain ⟨-, -, rfl⟩ := h; simp [Instr.mnemonic]
  | rdf a => obtain ⟨-, -, rfl⟩ := h; simp [Instr.mnemonic]
  | build => obtain ⟨-, -, -, rfl⟩ := h; simp [Instr.mnemonic]
  | rdn a => obtain ⟨-, -, rfl⟩ := h; simp [Instr.mnemonic]
  | wrn a => obtain ⟨-, -, rfl⟩ := h; simp [Instr.mnemonic]
  | setroot => obtain ⟨-, -, rfl⟩ := h; simp [Instr.mnemonic]
  | tchk => obtain ⟨-, -, rfl⟩ := h; simp [Instr.mnemonic]
  | genc => obtain ⟨-, table, -, -, rfl⟩ := h; simp [Instr.mnemonic]
  | rdc a => obtain ⟨-, -, rfl⟩ := h; simp [Instr.mnemonic]
  | setw => obtain ⟨-, -, rfl⟩ := h; simp [Instr.mnemonic]
  | setr => obtain ⟨-, -, rfl⟩ := h; simp [Instr.mnemonic]
  | wrb a => obtain ⟨-, -, rfl⟩ := h; simp [Instr.mnemonic]
  | rdb a => obtain ⟨w, -, -, rfl⟩ := h; simp [Instr.mnemonic]
  | enc a => obtain ⟨-, -, -, -, -, rfl⟩ := h; simp [Instr.mnemonic]
  | dend => obtain ⟨-, -, -, rfl⟩ := h; simp [Instr.mnemonic]
  | dbit a =>
    obtain ⟨-, -, hw⟩ := h
    obtain ⟨d, rfl⟩ := walkStep_writes_dnode_only hw
    simp [Instr.mnemonic]
  | decs =>
    obtain ⟨-, hl⟩ := h
    obtain ⟨d, p, rfl⟩ := decodeLoop_writes_dnode_and_rptr_only hl
    simp [Instr.mnemonic]

/-! ## The statements -/

/-- Settles O22: a failed command leaves TV and CTV, and completion writes neither. -/
theorem validityFlagsAreWrittenOnlyAsStated : Obligations.ValidityFlagsAreWrittenOnlyAsStated := by
  intro i s t h
  obtain ⟨s1, hc, rfl⟩ | ⟨s1, x, hc, rfl⟩ | ⟨c, hne, rfl⟩ := exec_cases h
  · obtain ⟨hflags, -⟩ := hc.writes
    simpa [FlagsWritten] using hflags
  · obtain ⟨hflags, -⟩ := hc.writes
    simpa [FlagsWritten] using hflags
  · simp [hne]

/-- Settles O23: completion writes DATA0 only when a symbol is emitted, which only DBIT and DECS do. -/
theorem dataRegistersAreWrittenOnlyByTheirCommands : Obligations.DataRegistersAreWrittenOnlyByTheirCommands := by
  intro i s t h
  obtain ⟨s1, hc, rfl⟩ | ⟨s1, x, hc, rfl⟩ | ⟨c, hne, rfl⟩ := exec_cases h
  · obtain ⟨-, ⟨h0, h1, h2⟩, -⟩ := hc.writes
    exact ⟨fun hd => .inl (h0 hd), h1, h2⟩
  · obtain ⟨-, ⟨-, h1, h2⟩, -⟩ := hc.writes
    exact ⟨fun _ => .inr ⟨emits_only_dbit_decs hc, rfl⟩, h1, h2⟩
  · simp

/-- Settles O24: completion and a failed command write none of these fields. -/
theorem arraysAndPointersAreWrittenOnlyByTheirCommands : Obligations.ArraysAndPointersAreWrittenOnlyByTheirCommands := by
  intro i s t h
  obtain ⟨s1, hc, rfl⟩ | ⟨s1, x, hc, rfl⟩ | ⟨c, -, rfl⟩ := exec_cases h
  · obtain ⟨-, -, harrays, -⟩ := hc.writes
    exact harrays
  · obtain ⟨-, -, harrays, -⟩ := hc.writes
    exact harrays
  · simp

/-- Settles O27: SYMV = 1 is the completion of a command that emitted a symbol, which is then in DATA0. -/
theorem symvMeansADecodedSymbol : Obligations.SymvMeansADecodedSymbol := by
  intro i s t h hsymv
  obtain ⟨s1, -, rfl⟩ | ⟨s1, x, hc, rfl⟩ | ⟨c, -, rfl⟩ := exec_cases h
  · simp at hsymv
  · exact ⟨emits_only_dbit_decs hc, rfl, x, rfl⟩
  · simp at hsymv

end Sys2Proof.Machine
end

section
/-! The tree BUILD writes is well-formed (R122, R131, R132). Node RAM is read as a forest, the trees under the queue's
indices; the rule's loop accepts a tree that reaches every index once, and each step of BUILD keeps such a forest. -/

namespace Sys2Proof.Machine

/-! ## Forests in node RAM -/

/-- The node words from the roots `stack` on are trees of well-formed words (R120): `is` are the indices they reach and
`xs` the symbols of their leaves, in the order in which the loop of R131 pops them. -/
inductive ForestAt (node : Vector Word 511) : List Nat → List Nat → List Sym → Prop where
  | nil : ForestAt node [] [] []
  | leaf {i : Nat} {stack is : List Nat} {xs : List Sym} (hleaf : isLeafWord (nodeEntry node i) = true)
      (hzeros : leafZeros (nodeEntry node i) = true) (hrest : ForestAt node stack is xs) :
      ForestAt node (i :: stack) (i :: is) (symField (nodeEntry node i) :: xs)
  | fork {i : Nat} {stack is : List Nat} {xs : List Sym} (hfork : isLeafWord (nodeEntry node i) = false)
      (hzeros : internalZeros (nodeEntry node i) = true)
      (hrest : ForestAt node
        ((leftField (nodeEntry node i)).toNat :: (rightField (nodeEntry node i)).toNat :: stack) is xs) :
      ForestAt node (i :: stack) (i :: is) xs

/-- Writing an entry the forest does not reach leaves the forest. -/
theorem ForestAt.setNodeEntry {node : Vector Word 511} {stack is : List Nat} {xs : List Sym} {k : Nat} (w : Word)
    (h : ForestAt node stack is xs) (hk : k ∉ is) : ForestAt (setNodeEntry node k w) stack is xs := by
  induction h with
  | nil => exact .nil
  | @leaf i stack is xs hleaf hzeros _ ih =>
    obtain ⟨hne, hk⟩ : k ≠ i ∧ k ∉ is := by simpa using hk
    have he := nodeEntry_setNodeEntry_other node w hne
    rw [← he] at hleaf hzeros ⊢
    exact .leaf hleaf hzeros (ih hk)
  | @fork i stack is xs hfork hzeros _ ih =>
    obtain ⟨hne, hk⟩ : k ≠ i ∧ k ∉ is := by simpa using hk
    have he := nodeEntry_setNodeEntry_other node w hne
    refine .fork (he ▸ hfork) (he ▸ hzeros) ?_
    rw [he]
    exact ih hk

/-- Two forests side by side are one. -/
theorem ForestAt.append {node : Vector Word 511} {stack stack' is is' : List Nat} {xs xs' : List Sym}
    (h : ForestAt node stack is xs) (h' : ForestAt node stack' is' xs') :
    ForestAt node (stack ++ stack') (is ++ is') (xs ++ xs') := by
  induction h with
  | nil => exact h'
  | leaf hleaf hzeros _ ih => exact .leaf hleaf hzeros ih
  | fork hfork hzeros _ ih => exact .fork hfork hzeros ih

/-- A forest taken apart behind some of its roots. -/
theorem ForestAt.split {node : Vector Word 511} {stack is : List Nat} {xs : List Sym} (h : ForestAt node stack is xs) :
    ∀ stack1 stack2, stack = stack1 ++ stack2 → ∃ is1 is2 xs1 xs2, is = is1 ++ is2 ∧ xs = xs1 ++ xs2 ∧
      ForestAt node stack1 is1 xs1 ∧ ForestAt node stack2 is2 xs2 := by
  induction h with
  | nil =>
    intro stack1 stack2 hs
    obtain ⟨rfl, rfl⟩ := List.append_eq_nil_iff.mp hs.symm
    exact ⟨[], [], [], [], rfl, rfl, .nil, .nil⟩
  | @leaf i stack is xs hleaf hzeros hrest ih =>
    rintro (_ | ⟨j, stack1⟩) stack2 hs
    · subst hs
      exact ⟨[], _, [], _, rfl, rfl, .nil, .leaf hleaf hzeros hrest⟩
    · obtain ⟨rfl, hs'⟩ := List.cons_eq_cons.mp hs
      obtain ⟨is1, is2, xs1, xs2, rfl, rfl, h1, h2⟩ := ih stack1 stack2 hs'
      exact ⟨_, is2, _, xs2, rfl, rfl, .leaf hleaf hzeros h1, h2⟩
  | @fork i stack is xs hfork hzeros hrest ih =>
    rintro (_ | ⟨j, stack1⟩) stack2 hs
    · subst hs
      exact ⟨[], _, [], _, rfl, rfl, .nil, .fork hfork hzeros hrest⟩
    · obtain ⟨rfl, rfl⟩ := List.cons_eq_cons.mp hs
      obtain ⟨is1, is2, xs1, xs2, rfl, rfl, h1, h2⟩ := ih (_ :: _ :: stack1) stack2 rfl
      exact ⟨_, is2, xs1, xs2, rfl, rfl, .fork hfork hzeros h1, h2⟩

/-- The order of the roots does not matter. -/
theorem ForestAt.perm {node : Vector Word 511} {stack stack' is : List Nat} {xs : List Sym}
    (hp : stack.Perm stack') (h : ForestAt node stack is xs) :
    ∃ is' xs', is.Perm is' ∧ xs.Perm xs' ∧ ForestAt node stack' is' xs' := by
  induction hp generalizing is xs with
  | nil => exact ⟨is, xs, .rfl, .rfl, h⟩
  | cons i _ ih =>
    obtain ⟨is1, is2, xs1, xs2, rfl, rfl, h1, h2⟩ := h.split [i] _ rfl
    obtain ⟨is', xs', hi, hx, h2'⟩ := ih h2
    exact ⟨_, _, hi.append_left is1, hx.append_left xs1, h1.append h2'⟩
  | swap j i stack =>
    obtain ⟨is1, is2, xs1, xs2, rfl, rfl, h1, h2⟩ := h.split [i] _ rfl
    obtain ⟨is2, is3, xs2, xs3, rfl, rfl, h2, h3⟩ := h2.split [j] _ rfl
    refine ⟨_, _, ?_, ?_, h2.append (h1.append h3)⟩
    · simpa using (List.perm_append_comm (l₁ := is1) (l₂ := is2)).append_right is3
    · simpa using (List.perm_append_comm (l₁ := xs1) (l₂ := xs2)).append_right xs3
  | trans _ _ ih1 ih2 =>
    obtain ⟨is1, xs1, hi1, hx1, h1⟩ := ih1 h
    obtain ⟨is2, xs2, hi2, hx2, h2⟩ := ih2 h1
    exact ⟨is2, xs2, hi1.trans hi2, hx1.trans hx2, h2⟩

/-! ## The loop of WellFormed accepts a forest (R131) -/

theorem wellFormedLoop_nil (node : Vector Word 511) (m turns : Nat) (seen : List Nat) (syms : List Sym) :
    wellFormedLoop node m turns [] seen syms = (seen.length == m) := by
  cases turns <;> rfl

theorem wellFormedLoop_leaf {node : Vector Word 511} {m i : Nat} {seen : List Nat} {syms : List Sym} (turns : Nat)
    (stack : List Nat) (hi : i < m) (hseen : i ∉ seen) (hleaf : isLeafWord (nodeEntry node i) = true)
    (hzeros : leafZeros (nodeEntry node i) = true) (hsym : symField (nodeEntry node i) ∉ syms) :
    wellFormedLoop node m (turns + 1) (i :: stack) seen syms =
      wellFormedLoop node m turns stack (i :: seen) (symField (nodeEntry node i) :: syms) := by
  simp [wellFormedLoop, hseen, hleaf, hzeros, hsym, hi]

theorem wellFormedLoop_fork {node : Vector Word 511} {m i : Nat} {seen : List Nat} (syms : List Sym) (turns : Nat)
    (stack : List Nat) (hi : i < m) (hseen : i ∉ seen) (hfork : isLeafWord (nodeEntry node i) = false)
    (hzeros : internalZeros (nodeEntry node i) = true) :
    wellFormedLoop node m (turns + 1) (i :: stack) seen syms =
      wellFormedLoop node m turns
        ((leftField (nodeEntry node i)).toNat :: (rightField (nodeEntry node i)).toNat :: stack) (i :: seen) syms := by
  simp [wellFormedLoop, hseen, hfork, hzeros, hi]

/-- On a forest whose indices are below `m` and, with those seen, reached once, and whose symbols are distinct from each
other and from those seen, the loop ends with its count of the indices. -/
theorem wellFormedLoop_of_forestAt {node : Vector Word 511} {m : Nat} {stack is : List Nat} {xs : List Sym}
    (h : ForestAt node stack is xs) {turns : Nat} {seen : List Nat} {syms : List Sym} (hturns : is.length ≤ turns)
    (hm : ∀ i ∈ is, i < m) (hseen : (is ++ seen).Nodup) (hsyms : (xs ++ syms).Nodup) :
    wellFormedLoop node m turns stack seen syms = (is.length + seen.length == m) := by
  induction h generalizing turns seen syms with
  | nil => simp [wellFormedLoop_nil]
  | @leaf i stack is xs hleaf hzeros _ ih =>
    obtain ⟨turns, rfl⟩ : ∃ n, turns = n + 1 := Nat.exists_eq_add_one.mpr (by simp at hturns; omega)
    have hseen' := (List.perm_middle (l₁ := is) (l₂ := seen)).nodup_iff.mpr hseen
    have hsyms' := (List.perm_middle (l₁ := xs) (l₂ := syms)).nodup_iff.mpr hsyms
    rw [wellFormedLoop_leaf turns stack (hm i (by simp)) (by simp_all) hleaf hzeros (by simp_all),
      ih (by simpa using hturns) (fun j hj => hm j (by simp [hj])) hseen' hsyms']
    simp [Nat.add_comm, Nat.add_left_comm]
  | @fork i stack is xs hfork hzeros _ ih =>
    obtain ⟨turns, rfl⟩ : ∃ n, turns = n + 1 := Nat.exists_eq_add_one.mpr (by simp at hturns; omega)
    have hseen' := (List.perm_middle (l₁ := is) (l₂ := seen)).nodup_iff.mpr hseen
    rw [wellFormedLoop_fork syms turns stack (hm i (by simp)) (by simp_all) hfork hzeros,
      ih (by simpa using hturns) (fun j hj => hm j (by simp [hj])) hseen' hsyms]
    simp [Nat.add_comm, Nat.add_left_comm]

/-- A tree that reaches exactly the indices below `m`, each once, and whose leaves hold distinct symbols, is well-formed. -/
theorem wellFormedTree_of_forestAt {node : Vector Word 511} {r m : Nat} {is : List Nat} {xs : List Sym}
    (h : ForestAt node [r] is xs) (his : is.Perm (List.range m)) (hxs : xs.Nodup) (hr : r < m) (hm : m ≤ 511) :
    wellFormedTree node r m = true := by
  have hlen : is.length = m := by simpa using his.length_eq
  have hpos : m ≠ 0 := by omega
  have hloop := wellFormedLoop_of_forestAt h (m := m) (turns := m) (seen := []) (syms := []) hlen.le
    (fun i hi => List.mem_range.mp (his.subset hi)) (by simpa using his.nodup_iff.mpr List.nodup_range) (by simpa using hxs)
  simpa [wellFormedTree, hpos, hm, hr, hlen] using hloop

/-! ## Each step of BUILD keeps the forest (R122) -/

/-- The roots are among the indices reached. -/
theorem ForestAt.subset {node : Vector Word 511} {stack is : List Nat} {xs : List Sym} (h : ForestAt node stack is xs) :
    stack ⊆ is := by
  induction h with
  | nil => simp
  | leaf _ _ _ ih => exact List.cons_subset_cons _ ih
  | fork _ _ _ ih => exact List.cons_subset_cons _ fun j hj => ih (by simp [hj])

/-- The leaf of a symbol, written at a fresh index, is one more tree. -/
theorem ForestAt.addLeaf {node : Vector Word 511} {stack is : List Nat} {xs : List Sym} {k : Nat} (x : Sym)
    (h : ForestAt node stack is xs) (hk : k ∉ is) (hlt : k < 511) :
    ForestAt (Machine.setNodeEntry node k (leafWord x)) (k :: stack) (k :: is) (x :: xs) := by
  obtain ⟨hleaf, hsym, hzeros⟩ := leafWord_fields x
  have he := nodeEntry_setNodeEntry_same node (leafWord x) hlt
  have hnew := ForestAt.leaf (by rwa [he]) (by rwa [he]) (h.setNodeEntry (leafWord x) hk)
  rwa [he, hsym] at hnew

/-- An internal node, written at a fresh index, puts two trees under one root. -/
theorem ForestAt.addFork {node : Vector Word 511} {stack is : List Nat} {xs : List Sym} {k a b : Nat}
    (h : ForestAt node (a :: b :: stack) is xs) (hk : k ∉ is) (hlt : k < 511) (ha : a < 512) (hb : b < 512) :
    ForestAt (Machine.setNodeEntry node k (internalWord a b)) (k :: stack) (k :: is) xs := by
  obtain ⟨hfork, hleft, hright, hzeros⟩ := internalWord_fields ha hb
  have he := nodeEntry_setNodeEntry_same node (internalWord a b) hlt
  exact .fork (by rwa [he]) (by rwa [he]) (by simpa [he, hleft, hright] using h.setNodeEntry (internalWord a b) hk)

/-- What every step of BUILD keeps, `xs` being the symbols it has given a leaf: node RAM holds a forest under the
queue's indices, which reaches the indices used so far and holds the symbols `xs`; the newest index is the queue's first;
a leaf adds 2 to `total`, a merge 0. -/
structure Building (xs : List Sym) (total : Nat) (b : Builder) : Prop where
  forest : ∃ is ys, ForestAt b.node (b.queue.map QueueKey.index) is ys ∧ is.Perm (List.range b.next) ∧ ys.Perm xs
  newest : ∀ k ∈ b.queue.head?, k.index + 1 = b.next
  count : b.next + b.queue.length = total

theorem building_start (node nw : Vector Word 511) : Building [] 0 { node := node, nw := nw, queue := [], next := 0 } where
  forest := ⟨[], [], .nil, .rfl, .rfl⟩
  newest := by simp
  count := rfl

theorem not_mem_of_perm_range {is : List Nat} {n : Nat} (h : is.Perm (List.range n)) : n ∉ is :=
  fun hn => by simpa using h.subset hn

theorem cons_perm_range_succ {is : List Nat} {n : Nat} (h : is.Perm (List.range n)) :
    (n :: is).Perm (List.range (n + 1)) := by
  rw [List.range_succ]
  exact (h.cons n).trans (List.perm_append_singleton _ _).symm

theorem Building.addLeaf {xs : List Sym} {total : Nat} {b : Builder} (freq : Vector Word 256) (x : Sym)
    (h : Building xs total b) (hlt : b.next < 511) : Building (x :: xs) (total + 2) (Machine.addLeaf freq b x) where
  forest := by
    obtain ⟨is, ys, hf, his, hys⟩ := h.forest
    exact ⟨_, _, hf.addLeaf x (not_mem_of_perm_range his) hlt, cons_perm_range_succ his, hys.cons x⟩
  newest := by simp [Machine.addLeaf]
  count := by
    have := h.count
    simp only [Machine.addLeaf, addNode_next, addNode_queue, List.length_cons]
    omega

theorem Building.mergeTwo {xs : List Sym} {total : Nat} {b : Builder} {first second : QueueKey} {rest : List QueueKey}
    (h : Building xs total b) (hq : b.queue.Perm (first :: second :: rest)) (htotal : total ≤ 512) :
    Building xs total (Machine.mergeTwo first second rest b) := by
  have hcount := h.count
  have hlen : b.queue.length = rest.length + 2 := by simpa using hq.length_eq
  refine ⟨?_, by simp [Machine.mergeTwo], ?_⟩
  · obtain ⟨is0, ys0, hf0, his0, hys0⟩ := h.forest
    obtain ⟨is, ys, hi, hy, hf⟩ := hf0.perm (hq.map QueueKey.index)
    have his := hi.symm.trans his0
    have hused : ∀ k ∈ is, k < b.next := fun k hk => List.mem_range.mp (his.subset hk)
    have hfirst := hused first.index (hf.subset (by simp))
    have hsecond := hused second.index (hf.subset (by simp))
    have hlt : b.next < 511 := by omega
    exact ⟨_, _, hf.addFork (not_mem_of_perm_range his) hlt (by omega) (by omega), cons_perm_range_succ his,
      hy.symm.trans hys0⟩
  · simp only [Machine.mergeTwo, addNode_next, addNode_queue, List.length_cons]
    omega

/-- The leaves of a list of symbols. -/
theorem Building.addLeaves {xs : List Sym} {total : Nat} {b : Builder} (freq : Vector Word 256) (syms : List Sym)
    (h : Building xs total b) (hlt : b.next + syms.length ≤ 511) :
    Building (syms.reverse ++ xs) (total + 2 * syms.length) (syms.foldl (Machine.addLeaf freq) b) := by
  induction syms generalizing xs total b with
  | nil => simpa using h
  | cons x syms ih =>
    simp only [List.length_cons] at hlt
    have hnext : (Machine.addLeaf freq b x).next + syms.length ≤ 511 := by
      simp only [Machine.addLeaf, addNode_next]
      omega
    have hrest := ih (h.addLeaf freq x (by omega)) hnext
    rw [show total + 2 + 2 * syms.length = total + 2 * (x :: syms).length by simp; omega] at hrest
    simpa using hrest

/-- The merges keep the forest and, with enough turns, leave one tree at most. -/
theorem Building.mergeAll {xs : List Sym} {total turns : Nat} {b : Builder} (h : Building xs total b)
    (htotal : total ≤ 512) (hturns : b.queue.length ≤ turns + 1) :
    Building xs total (Machine.mergeAll turns b) ∧ (Machine.mergeAll turns b).queue.length ≤ 1 := by
  induction turns generalizing b with
  | zero => exact ⟨h, hturns⟩
  | succ turns ih =>
    unfold Machine.mergeAll
    split
    · next hnone => exact ⟨h, by simp [takeLeast_eq_none.mp hnone]⟩
    · next first q1 h1 =>
      split
      · next hnone => exact ⟨h, by simp [length_takeLeast h1, takeLeast_eq_none.mp hnone]⟩
      · next second q2 h2 =>
        have hq := (takeLeast_spec h1).1.trans ((takeLeast_spec h2).1.cons first)
        refine ih (h.mergeTwo hq htotal) ?_
        have := hq.length_eq
        simp only [List.length_cons] at this
        simp only [Machine.mergeTwo, addNode_queue, List.length_cons]
        omega

/-- One tree is left when every leaf is under it: its root is the last index used, and it is well-formed. -/
theorem Building.wellFormedTree {xs : List Sym} {total : Nat} {b : Builder} (h : Building xs total b) (hxs : xs.Nodup)
    (hpos : total ≠ 0) (htotal : total ≤ 512) (hq : b.queue.length ≤ 1) :
    b.next ≤ 511 ∧ Machine.wellFormedTree b.node (b.next - 1) b.next = true := by
  obtain ⟨is, ys, hf, his, hys⟩ := h.forest
  have hcount := h.count
  rcases hb : b.queue with _ | ⟨k, _ | ⟨l, q⟩⟩
  · rw [hb] at hf hcount
    cases hf
    have hnext : b.next = 0 := by simpa using his.length_eq.symm
    simp only [List.length_nil] at hcount
    omega
  · have hk : k.index + 1 = b.next := h.newest k (by simp [hb])
    rw [hb] at hf hcount
    simp only [List.length_singleton] at hcount
    refine ⟨by omega, ?_⟩
    rw [show b.next - 1 = k.index by omega]
    exact wellFormedTree_of_forestAt hf his (hys.nodup_iff.mpr hxs) (by omega) (by omega)
  · simp [hb] at hq

/-! ## BUILD -/

theorem nodup_allSyms : allSyms.Nodup := by
  refine List.Nodup.map_on (fun i hi j hj h => ?_) List.nodup_range
  have hmod := congrArg BitVec.toNat h
  simp only [List.mem_range] at hi hj
  simpa [Nat.mod_eq_of_lt hi, Nat.mod_eq_of_lt hj] using hmod

theorem nodup_presentSyms (freq : Vector Word 256) : (presentSyms freq).Nodup := by
  rw [presentSyms_eq_filter]
  exact nodup_allSyms.filter _

theorem nsymCount_le (freq : Vector Word 256) : nsymCount freq ≤ 256 := by
  rw [nsymCount, presentSyms_eq_filter]
  exact (List.length_filter_le _ _).trans_eq (by simp [allSyms])

@[simp] theorem length_queue_addLeaves (freq : Vector Word 256) (syms : List Sym) (b : Builder) :
    (syms.foldl (addLeaf freq) b).queue.length = b.queue.length + syms.length := by
  induction syms generalizing b with
  | nil => rfl
  | cons x syms ih =>
    simp only [List.foldl_cons, ih, addLeaf, addNode_queue, List.length_cons]
    omega

/-- The loops of BUILD end with one well-formed tree, whose root is the last index they used (R132). -/
theorem buildTree_wellFormed (s : State) (h : nsymCount s.freq ≠ 0) :
    (buildTree s).next ≤ 511 ∧
      wellFormedTree (buildTree s).node ((buildTree s).next - 1) (buildTree s).next = true := by
  have hn := nsymCount_le s.freq
  rw [nsymCount] at h hn
  have hseed := (building_start s.node s.nw).addLeaves s.freq (presentSyms s.freq) (by simp only; omega)
  have hdone := hseed.mergeAll (turns := nsymCount s.freq) (by omega) (by simp [nsymCount])
  exact hdone.1.wellFormedTree (by simpa using nodup_presentSyms s.freq) (by omega) (by omega) hdone.2

end Sys2Proof.Machine
end

section
/-! The invariants of the reachable states (R53): the pointers, the tree with its table and walk, and the pending command,
each kept by every event. -/

namespace Sys2Proof.Machine

/-! ## RPTR <= WPTR <= CAP_BITS (R53 c) -/

/-- A position of a stream in a buffer of legal size fits in a pointer (R7, R39). -/
theorem capBits_lt_of_wf {s : State} (h : Memory.wf s.buf = true) : s.capBits < 2 ^ 22 := by
  simp only [Memory.wf, Bool.and_eq_true, decide_eq_true_eq] at h
  simp only [State.capBits, State.bufWords]
  omega

/-- A pointer set to a position that the buffer has. -/
theorem toNat_setWidth_pointer {s : State} {p : Word} (h : Memory.wf s.buf = true) (hp : p.toNat ≤ s.capBits) :
    (p.setWidth 22).toNat = p.toNat := by
  have := capBits_lt_of_wf h
  rw [BitVec.toNat_setWidth]
  omega

/-- DECS reads at most the bits before WPTR, and moves RPTR past those it read (R203). -/
theorem decodeLoop_rptr_le {n : Nat} {s s1 : State} {e : Option Sym} (h : decodeLoop n s = .ok (s1, e))
    (hn : s.rptr.toNat + n ≤ s.wptr.toNat) : s1.rptr.toNat ≤ s1.wptr.toNat := by
  induction n generalizing s with
  | zero =>
    cases h
    omega
  | succ n ih =>
    have hw := s.wptr.isLt
    have hinc : (s.rptr + 1).toNat = s.rptr.toNat + 1 := by
      rw [BitVec.toNat_add]
      simp
      omega
    rw [decodeLoop] at h
    split at h
    · cases h
    · next hs =>
      obtain ⟨d, rfl⟩ := walkStep_writes_dnode_only hs
      cases h
      simp only [hinc]
      omega
    · next hs =>
      obtain ⟨d, rfl⟩ := walkStep_writes_dnode_only hs
      exact ih h (by simp only [hinc]; omega)

/-- The writes of a command keep the pointers in bounds: each of the commands that move a pointer checks the bound or
sets the pointer to 0. -/
theorem Commits.pointersInBounds {i : Instr} {s s1 : State} {e : Option Sym} (hc : Commits i s s1 e)
    (h : PointersInBounds s) : PointersInBounds s1 := by
  have hlen : s1.buf.length = s.buf.length := by
    have hkeeps := runOf_keepsBufWords i s
    rwa [runOf_eq_ok_iff.mpr hc] at hkeeps
  obtain ⟨hwf, hr, hw⟩ := h
  refine ⟨wf_of_length_eq hlen ▸ hwf, ?_⟩
  simp only [State.capBits, State.bufWords, hlen] at hw ⊢
  cases i with
  | init => obtain ⟨-, rfl⟩ := hc; simp
  | clrb => obtain ⟨-, rfl⟩ := hc; simp
  | setw =>
    obtain ⟨⟨hcap, hlow⟩, -, rfl⟩ := hc
    simp only [toNat_setWidth_pointer hwf hcap]
    exact ⟨hlow, hcap⟩
  | setr =>
    obtain ⟨hhigh, -, rfl⟩ := hc
    simp only [toNat_setWidth_pointer hwf (hhigh.trans hw)]
    exact ⟨hhigh, hw⟩
  | enc a =>
    obtain ⟨-, -, -, hcap, -, rfl⟩ := hc
    have hlt := hcap.trans_lt (capBits_lt_of_wf hwf)
    simp only [BitVec.toNat_ofNat, Nat.mod_eq_of_lt hlt]
    exact ⟨by omega, hcap⟩
  | decs =>
    obtain ⟨-, hl⟩ := hc
    have hle := decodeLoop_rptr_le hl (by omega)
    obtain ⟨d, p, rfl⟩ := decodeLoop_writes_dnode_and_rptr_only hl
    exact ⟨hle, hw⟩
  | _ =>
    obtain ⟨-, -, ⟨-, -, -, -, -, hwptr, hrptr, -⟩, -⟩ := hc.writes
    rw [not_imp_comm.mp hwptr (by simp [Instr.mnemonic]), not_imp_comm.mp hrptr (by simp [Instr.mnemonic])]
    exact ⟨hr, hw⟩

theorem exec_keeps_pointersInBounds {i : Instr} {s t : State} (h : PointersInBounds s) (he : exec i s = .next t) :
    PointersInBounds t := by
  obtain ⟨s1, hc, rfl⟩ | ⟨s1, x, hc, rfl⟩ | ⟨c, -, rfl⟩ := exec_cases he
  · exact hc.pointersInBounds h
  · exact hc.pointersInBounds h
  · exact h

/-- A bus write reaches the flags, DATA0 to DATA2, IE, the command latch and the port's answer, and nothing else
(R66 to R70). -/
theorem busWrite_eq (addr : BitVec 8) (size : Nat) (v : Word) (s : State) :
    ∃ busy done err lost data0 data1 data2 ie lastcmd pend resp, busWrite addr size v s = { s with
      busy := busy, done := done, err := err, lost := lost, data0 := data0, data1 := data1, data2 := data2, ie := ie,
      lastcmd := lastcmd, pend := pend, resp := resp } := by
  obtain ⟨-, h⟩ | ⟨-, h⟩ := busWrite_cases addr size v s
  · exact ⟨_, _, _, _, _, _, _, _, _, _, _, h⟩
  · obtain hw | ⟨-, hw⟩ | ⟨-, hw⟩ | ⟨-, hw | hw | hw⟩ | hw | hw := writeOffset_cases addr v s <;> rw [hw] at h <;>
      exact ⟨_, _, _, _, _, _, _, _, _, _, _, h⟩

theorem powerOn_pointersInBounds {n : Nat} (epoch : Nat) (h1 : 1 ≤ n) (h2 : n ≤ 65536) :
    PointersInBounds (powerOn n epoch) := by
  simp [PointersInBounds, powerOn, Memory.wf, h1, h2]

/-- Settles O58: the four kinds of event, by `step_cases`; a command by `Commits.pointersInBounds`. -/
theorem stepKeepsThePointersInBounds : Obligations.StepKeepsThePointersInBounds := by
  intro s t h hstep
  obtain ⟨addr, size, -, rfl⟩ | ⟨addr, size, v, -, rfl⟩ | ⟨-, he⟩ | ⟨-, rfl⟩ := step_cases hstep
  · rw [busRead_eq]
    exact h
  · obtain ⟨_, _, _, _, _, _, _, _, _, _, _, hw⟩ := busWrite_eq addr size v (afterEvent s)
    rw [hw]
    exact h
  · obtain ⟨-, rfl⟩ | ⟨-, -, rfl⟩ | ⟨-, i, -, hi⟩ := engine_cases he
    · exact h
    · exact h
    · exact exec_keeps_pointersInBounds (s := afterEvent s) h hi
  · obtain ⟨hwf, -, -⟩ := h
    simp only [Memory.wf, Bool.and_eq_true, decide_eq_true_eq] at hwf
    exact powerOn_pointersInBounds _ hwf.1 hwf.2

/-! ## The tree, its code table and the walk (R53 a, b, d) -/

/-- The parts of `Inv` that speak of the tree. -/
structure TreeInv (s : State) : Prop where
  tree : s.tv = true → wellFormedTree s.node s.root.toNat s.nnodes.toNat = true
  table : TableIsOfTheTree s
  walk : s.tv = true → WalkIsInTheTree s

/-- What `TreeInv` looks at. -/
def treeView (s : State) :=
  (s.tv, s.ctv, s.node, s.root, s.nnodes, s.dnode, s.codes)

theorem TreeInv.congr {s t : State} (h : TreeInv s) (ht : treeView t = treeView s) : TreeInv t := by
  obtain ⟨htree, htable, hwalk⟩ := h
  simp only [treeView, Prod.mk.injEq] at ht
  obtain ⟨htv, hctv, hnode, hroot, hnn, hdnode, hcodes⟩ := ht
  constructor <;> simpa only [TableIsOfTheTree, WalkIsInTheTree, htv, hctv, hnode, hroot, hnn, hdnode, hcodes]

/-- Without a valid tree there is nothing to say but that the code table is cleared (R86, R87). -/
theorem TreeInv.of_invalid {s : State} (htv : s.tv = false) (hctv : s.ctv = false) (hcodes : s.codes = clearedTable) :
    TreeInv s where
  tree := by simp [htv]
  table := by simp [TableIsOfTheTree, hctv, hcodes]
  walk := by simp [htv]

/-- One bit keeps the walk in the tree: it stays, returns to ROOT, or moves to an internal child (R200). -/
theorem walkStep_keeps_walk {b : Bool} {s s1 : State} {e : Option Sym} (h : WalkIsInTheTree s)
    (hs : walkStep b s = .ok (s1, e)) : WalkIsInTheTree s1 := by
  obtain ⟨-, hw⟩ | hw | ⟨hl, c, hc, ⟨-, hw⟩ | ⟨hk, hw⟩⟩ := walkStep_cases b s <;> rw [hw] at hs <;> cases hs
  · exact h
  · exact .inl rfl
  · have hroot : ∃ p, follow s.node s.root.toNat p = some s.dnode.toNat := by
      obtain hd | ⟨-, p, hp⟩ := h
      · exact ⟨[], by rw [hd]; rfl⟩
      · exact ⟨p, hp⟩
    obtain ⟨p, hp⟩ := hroot
    refine .inr ⟨hk, p ++ [b], ?_⟩
    simp only [follow_append, hp, Option.bind_some, follow_cons_of_internal b [] hl, follow_nil, hc]

theorem walkStep_keeps_treeInv {b : Bool} {s s1 : State} {e : Option Sym} (h : TreeInv s)
    (hs : walkStep b s = .ok (s1, e)) : TreeInv s1 := by
  have hwalk := fun htv => walkStep_keeps_walk (h.walk htv) hs
  obtain ⟨d, rfl⟩ := walkStep_writes_dnode_only hs
  exact ⟨h.tree, h.table, hwalk⟩

theorem decodeLoop_keeps_treeInv {n : Nat} {s s1 : State} {e : Option Sym} (h : TreeInv s)
    (hl : decodeLoop n s = .ok (s1, e)) : TreeInv s1 := by
  induction n generalizing s with
  | zero =>
    cases hl
    exact h
  | succ n ih =>
    rw [decodeLoop] at hl
    split at hl
    · cases hl
    · next hs =>
      cases hl
      exact (walkStep_keeps_treeInv h hs).congr rfl
    · next hs =>
      refine ih ?_ hl
      exact (walkStep_keeps_treeInv h hs).congr rfl

/-- BUILD leaves a well-formed tree, the walk at its root and no code table (R122). -/
theorem installTree_treeInv {s : State} (h : nsymCount s.freq ≠ 0) : TreeInv (installTree (buildTree s) s) where
  tree _ := by
    obtain ⟨hnext, hwf⟩ := buildTree_wellFormed s h
    simp only [installTree_node, installTree_root, installTree_nnodes, BitVec.toNat_ofNat]
    rwa [Nat.mod_eq_of_lt (by omega), Nat.mod_eq_of_lt (by omega)]
  table := by simp [TableIsOfTheTree]
  walk _ := .inl rfl

/-- The writes of a command keep what is said of the tree. -/
theorem Commits.treeInv {i : Instr} {s s1 : State} {e : Option Sym} (hc : Commits i s s1 e) (h : TreeInv s) :
    TreeInv s1 := by
  cases i with
  | build =>
    obtain ⟨hn, -, -, rfl⟩ := hc
    exact installTree_treeInv hn
  | init =>
    obtain ⟨-, rfl⟩ := hc
    exact .of_invalid rfl rfl rfl
  | wrn a =>
    obtain ⟨-, -, rfl⟩ := hc
    exact .of_invalid rfl rfl rfl
  | setroot =>
    obtain ⟨-, -, rfl⟩ := hc
    exact .of_invalid rfl rfl rfl
  | tchk =>
    obtain ⟨hwf, -, rfl⟩ := hc
    refine ⟨fun _ => hwf, ?_, fun _ => .inl rfl⟩
    have htable := h.table
    unfold TableIsOfTheTree at htable ⊢
    split at htable
    · next hctv => simpa [hctv] using htable.2
    · next hctv => simpa [hctv] using htable
  | genc =>
    obtain ⟨htv, table, htable, -, rfl⟩ := hc
    exact ⟨h.tree, by simp [TableIsOfTheTree, htv, htable], h.walk⟩
  | drst =>
    obtain ⟨-, rfl⟩ := hc
    exact ⟨h.tree, h.table, fun _ => .inl rfl⟩
  | dbit a =>
    obtain ⟨-, -, hs⟩ := hc
    exact walkStep_keeps_treeInv h hs
  | decs =>
    obtain ⟨-, hl⟩ := hc
    exact decodeLoop_keeps_treeInv h hl
  | _ =>
    obtain ⟨⟨htv, hctv⟩, -, ⟨-, hnode, hcodes, -, hroot, -, -, hdnode, -⟩, -⟩ := hc.writes
    refine h.congr ?_
    simp_all [treeView, Instr.mnemonic]

theorem exec_keeps_treeInv {i : Instr} {s t : State} (h : TreeInv s) (he : exec i s = .next t) : TreeInv t := by
  obtain ⟨s1, hc, rfl⟩ | ⟨s1, x, hc, rfl⟩ | ⟨c, -, rfl⟩ := exec_cases he
  · exact (hc.treeInv h).congr rfl
  · exact (hc.treeInv h).congr rfl
  · exact h.congr rfl

theorem powerOn_treeInv (n epoch : Nat) : TreeInv (powerOn n epoch) := .of_invalid rfl rfl rfl

theorem step_keeps_treeInv {s t : State} (h : TreeInv s) (hstep : step s = .next t) : TreeInv t := by
  obtain ⟨addr, size, -, rfl⟩ | ⟨addr, size, v, -, rfl⟩ | ⟨-, he⟩ | ⟨-, rfl⟩ := step_cases hstep
  · rw [busRead_eq]
    exact h.congr rfl
  · obtain ⟨_, _, _, _, _, _, _, _, _, _, _, hw⟩ := busWrite_eq addr size v (afterEvent s)
    rw [hw]
    exact h.congr rfl
  · obtain ⟨-, rfl⟩ | ⟨-, -, rfl⟩ | ⟨-, i, -, hi⟩ := engine_cases he
    · exact h.congr rfl
    · exact h.congr rfl
    · exact exec_keeps_treeInv (s := afterEvent s) (h.congr rfl) hi
  · exact .of_invalid rfl rfl rfl

/-! ## The pending command (R53 e) -/

/-- While a command is pending DONE is 0 and LASTCMD is the pending word. -/
def PendingIsLastcmd (s : State) : Prop := s.busy = true → s.done = false ∧ s.pend = s.lastcmd

/-- Every command completes (R85). -/
theorem exec_busy {i : Instr} {s t : State} (h : exec i s = .next t) : t.busy = false := by
  obtain ⟨s1, -, rfl⟩ | ⟨s1, x, -, rfl⟩ | ⟨c, -, rfl⟩ := exec_cases h <;> rfl

/-- After the engine's turn no command is pending (R72). -/
theorem engine_busy {s t : State} (h : engine s = .next t) : t.busy = false := by
  obtain ⟨hb, rfl⟩ | ⟨-, -, rfl⟩ | ⟨-, i, -, hi⟩ := engine_cases h
  · exact hb
  · rfl
  · exact exec_busy hi

/-- A CMD write is accepted only when no command is pending, and a STATUS write can only clear DONE (R66, R68). -/
theorem writeOffset_keeps_pendingIsLastcmd {s : State} (off : BitVec 8) (v : Word) (h : PendingIsLastcmd s) :
    PendingIsLastcmd (writeOffset off v s) := by
  obtain hw | ⟨-, hw⟩ | ⟨-, hw⟩ | ⟨-, hw | hw | hw⟩ | hw | hw := writeOffset_cases off v s <;> rw [hw]
  · exact h
  · exact h
  · exact fun _ => ⟨rfl, rfl⟩
  · exact h
  · exact h
  · exact h
  · intro hb
    obtain ⟨hdone, hpend⟩ := h hb
    exact ⟨by simp [hdone], hpend⟩
  · exact h

theorem step_keeps_pendingIsLastcmd {s t : State} (h : PendingIsLastcmd s) (hstep : step s = .next t) :
    PendingIsLastcmd t := by
  obtain ⟨addr, size, -, rfl⟩ | ⟨addr, size, v, -, rfl⟩ | ⟨-, he⟩ | ⟨-, rfl⟩ := step_cases hstep
  · rw [busRead_eq]
    exact h
  · obtain ⟨-, hw⟩ | ⟨-, hw⟩ := busWrite_cases addr size v (afterEvent s) <;> rw [hw]
    · exact h
    · exact writeOffset_keeps_pendingIsLastcmd (s := afterEvent s) addr v h
  · exact fun hb => by simp [engine_busy he] at hb
  · exact fun hb => by simp [hardwareReset, powerOn] at hb

/-! ## The invariants -/

/-- Settles O59: the pointers, the tree and the pending command, each kept by every step. -/
theorem stepKeepsTheInvariants : Obligations.StepKeepsTheInvariants := by
  rintro s t ⟨htree, htable, hpointers, hwalk, hpending⟩ hstep
  obtain ⟨htree', htable', hwalk'⟩ := step_keeps_treeInv ⟨htree, htable, hwalk⟩ hstep
  exact ⟨htree', htable', stepKeepsThePointersInBounds s t hpointers hstep, hwalk',
    step_keeps_pendingIsLastcmd hpending hstep⟩

/-- Settles O60: after reset no tree is valid, the table is cleared, the pointers are 0 and no command is pending. -/
theorem resetStateMeetsTheInvariants : Obligations.ResetStateMeetsTheInvariants := by
  intro n epoch h1 h2
  obtain ⟨htree, htable, hwalk⟩ := powerOn_treeInv n epoch
  exact ⟨htree, htable, powerOn_pointersInBounds epoch h1 h2, hwalk, fun hb => by simp [powerOn] at hb⟩

end Sys2Proof.Machine
end

section
/-! The registers as the host sees them (R22, R26, R44, R71), and BUSY, DONE, ERR and LOST over every event (R27 to R29,
R35). -/

namespace Sys2Proof.Machine

/-! ## The register map (R22) -/

theorem regAt_offsetOf (r : Reg) : regAt (offsetOf r) = some r := by cases r <;> rfl

theorem offsetOf_injective {r r' : Reg} (h : offsetOf r = offsetOf r') : r = r' := by
  simpa [regAt_offsetOf] using congrArg regAt h

theorem offsetOf_of_regAt {off : BitVec 8} {r : Reg} (h : regAt off = some r) : off = offsetOf r := by
  apply BitVec.eq_of_toNat_eq
  unfold regAt at h
  split at h <;> cases h <;> simpa [offsetOf]

/-- A reserved offset is none of the registers' (R46). -/
theorem ne_offsetOf_of_regAt_eq_none {off : BitVec 8} (h : regAt off = none) (r : Reg) : off ≠ offsetOf r := by
  rintro rfl
  simp [regAt_offsetOf] at h

/-- The offsets of R22's table are those of the registers. -/
theorem keys_readTable (s : State) : (readTable s).map Prod.fst =
    [Reg.id, .cmd, .status, .data0, .data1, .data2, .root, .nnodes, .wptr, .rptr, .dnode, .cap, .ie, .nsym,
      .lastcmd].map fun r => (offsetOf r).toNat := rfl

/-- What a legal read returns is R22's table: the register at each offset listed, 0 at every other (R46, R71). -/
theorem readOffset_eq_readTable (off : BitVec 8) (s : State) :
    readOffset off s = ((readTable s).lookup off.toNat).getD 0 := by
  cases h : regAt off with
  | some r =>
    obtain rfl := offsetOf_of_regAt h
    cases r <;> rfl
  | none =>
    have hnone : (readTable s).lookup off.toNat = none := by
      refine List.lookup_eq_none_iff.mpr fun p hp => ?_
      have hkey := List.mem_map_of_mem (f := Prod.fst) hp
      rw [keys_readTable] at hkey
      obtain ⟨r, -, hr⟩ := List.mem_map.mp hkey
      rw [← hr]
      simpa [BitVec.toNat_inj] using ne_offsetOf_of_regAt_eq_none h r
    simp [readOffset, h, hnone]

/-- Settles O14: a legal read changes the port's answer only, and the answer is `readOffset`. -/
theorem readReturnsTheRegisterAtItsOffset : Obligations.ReadReturnsTheRegisterAtItsOffset := by
  intro s off rest he hoff
  have hread := readOffset_eq_readTable off { s with events := rest }
  simp only [step, he, handleEvent, busRead, legalAccess, hoff, hread]
  rfl

/-! ## STATUS (R26) -/

/-- The bits of a word above its last. -/
theorem extractLsb'_append_ofBool_succ {n : Nat} (x : BitVec n) (b : Bool) (k len : Nat) :
    (x ++ BitVec.ofBool b).extractLsb' (k + 1) len = x.extractLsb' k len := by
  apply BitVec.eq_of_getLsbD_eq
  intro i hi
  simp only [BitVec.getLsbD_extractLsb', Nat.add_right_comm k 1 i, getLsbD_append_ofBool_succ]

/-- Settles O15: the word is its bits put together from the top; a live bit is the comparison it stands for. -/
theorem statusShowsItsFields : Obligations.StatusShowsItsFields := by
  intro s
  unfold statusWord
  refine ⟨⟨?_, ?_, ?_, ?_, ?_, ?_, ?_⟩, ?_, ?_, ?_, ?_, ?_⟩
  iterate 7 simp only [getLsbD_append_ofBool_succ, getLsbD_append_ofBool_zero]
  · simp only [getLsbD_append_ofBool_succ, getLsbD_append_ofBool_zero, bempty, beq_iff_eq]
  · simp only [getLsbD_append_ofBool_succ, getLsbD_append_ofBool_zero, wroot, beq_iff_eq]
  · simp only [extractLsb'_append_ofBool_succ]
    cases s.errcode <;> rfl
  · simp only [extractLsb'_append_ofBool_succ]
    cases s.errcode <;> rfl
  · simp only [extractLsb'_append_ofBool_succ]
    cases s.errcode <;> rfl

/-! ## NSYM (R44) -/

/-- NSYM is the length of R122's list of symbols. -/
theorem nsymCount_eq_length_leafSymbols (freq : Vector Word 256) : nsymCount freq = (leafSymbols freq).length := by
  have hsyms : allSyms = (List.finRange 256).map fun x => BitVec.ofNat 8 x.val := by
    rw [allSyms, ← List.map_coe_finRange_eq_range, List.map_map]
    rfl
  rw [nsymCount, presentSyms_eq_filter, hsyms, List.filter_map, List.length_map, leafSymbols]
  congr 1
  refine List.filter_congr fun x _ => ?_
  rw [Bool.eq_iff_iff]
  simp [symEntry]

/-- Settles O16: R122's list names no symbol twice, so its length is the cardinality. -/
theorem nsymCountsTheNonzeroCounters : Obligations.NsymCountsTheNonzeroCounters := by
  intro freq
  rw [nsymCount_eq_length_leafSymbols, leafSymbols,
    ← List.toFinset_card_of_nodup ((List.nodup_finRange 256).filter _)]
  congr 1
  ext x
  simp

/-! ## The flags under a register write (R66 to R70) -/

theorem writeReg_busy (r : Reg) (v : Word) (s : State) : (writeReg r v s).busy = (s.busy || decide (r = .cmd)) := by
  cases r <;> cases hb : s.busy <;> simp [writeReg, writeCmd, hb]

theorem writeReg_done (r : Reg) (v : Word) (s : State) : (writeReg r v s).done =
    if r = .cmd then s.done && s.busy else if r = .status then s.done && !v.getLsbD 1 else s.done := by
  cases r <;> cases hb : s.busy <;> simp [writeReg, writeCmd, hb]

theorem writeReg_err (r : Reg) (v : Word) (s : State) :
    (writeReg r v s).err = if r = .status then s.err && !v.getLsbD 2 else s.err := by
  cases r <;> cases hb : s.busy <;> simp [writeReg, writeCmd, hb]

theorem writeReg_lost (r : Reg) (v : Word) (s : State) : (writeReg r v s).lost =
    if r = .status then s.lost && !v.getLsbD 8
    else s.lost || (s.busy && decide (r ∈ [.cmd, .data0, .data1, .data2])) := by
  cases r <;> cases hb : s.busy <;> simp [writeReg, writeCmd, hb]

/-! ## The flags over every event (R73) -/

/-- `t` has the four flags of `s`. -/
def SameFlags (s t : State) : Prop := t.busy = s.busy ∧ t.done = s.done ∧ t.err = s.err ∧ t.lost = s.lost

/-- A bus write that names a register is that register's write; any other leaves the flags. -/
theorem busWrite_flags (addr : BitVec 8) (size : Nat) (v : Word) (s : State) :
    (∃ r, size = 4 ∧ addr = offsetOf r ∧ SameFlags (writeReg r v s) (busWrite addr size v s)) ∨
      ((∀ r, size = 4 → addr ≠ offsetOf r) ∧ SameFlags s (busWrite addr size v s)) := by
  obtain ⟨hillegal, hw⟩ | ⟨hlegal, hw⟩ := busWrite_cases addr size v s
  · refine .inr ⟨fun r hsize haddr => ?_, by simp [hw, SameFlags]⟩
    subst hsize haddr
    cases r <;> simp [legalAccess, offsetOf] at hillegal
  · simp only [legalAccess, Bool.and_eq_true, beq_iff_eq] at hlegal
    cases h : regAt addr with
    | some r => exact .inl ⟨r, hlegal.1, offsetOf_of_regAt h, by simp [hw, SameFlags, writeOffset, h]⟩
    | none => exact .inr ⟨fun r _ => ne_offsetOf_of_regAt_eq_none h r, by simp [hw, SameFlags, writeOffset, h]⟩

/-- The engine's turn (R72, R85): it completes a pending command, which sets DONE, and ERR where the code is not 0. -/
theorem engine_flags {s t : State} (h : engine s = .next t) :
    t.busy = false ∧ t.done = (s.done || s.busy) ∧ t.err = (s.err || (s.busy && t.errcode != .ok)) ∧
      t.lost = s.lost := by
  obtain ⟨hb, rfl⟩ | ⟨hb, -, rfl⟩ | ⟨hb, i, -, hi⟩ := engine_cases h
  · simp [hb]
  · simp [hb]
  · obtain ⟨s1, hc, rfl⟩ | ⟨s1, x, hc, rfl⟩ | ⟨c, hne, rfl⟩ := exec_cases hi
    · obtain ⟨-, -, harrays, herr⟩ := hc.writes
      obtain ⟨-, -, -, -, -, -, -, -, -, -, hlost, -⟩ := harrays
      simp [hb, herr, hlost]
    · obtain ⟨-, -, harrays, herr⟩ := hc.writes
      obtain ⟨-, -, -, -, -, -, -, -, -, -, hlost, -⟩ := harrays
      simp [hb, herr, hlost]
    · simp [hb, hne]

/-- What one step does to the flags, by its event. -/
theorem step_flags {s t : State} (h : step s = .next t) :
    (∃ r v, nextEvent s = .write (offsetOf r) 4 v ∧ SameFlags (writeReg r v (afterEvent s)) t) ∨
      ((∀ r v, nextEvent s ≠ .write (offsetOf r) 4 v) ∧ nextEvent s ≠ .engine ∧ nextEvent s ≠ .reset ∧ SameFlags s t) ∨
      (nextEvent s = .engine ∧ t.busy = false ∧ t.done = (s.done || s.busy) ∧
        t.err = (s.err || (s.busy && t.errcode != .ok)) ∧ t.lost = s.lost) ∨
      (nextEvent s = .reset ∧ t.busy = false ∧ t.done = false ∧ t.err = false ∧ t.lost = false) := by
  obtain ⟨addr, size, he, rfl⟩ | ⟨addr, size, v, he, rfl⟩ | ⟨he, hstep⟩ | ⟨he, rfl⟩ := step_cases h <;> rw [he]
  · refine .inr (.inl ⟨by simp, by simp, by simp, ?_⟩)
    rw [busRead_eq]
    exact ⟨rfl, rfl, rfl, rfl⟩
  · obtain ⟨r, rfl, rfl, hsame⟩ | ⟨hne, hsame⟩ := busWrite_flags addr size v (afterEvent s)
    · exact .inl ⟨r, v, rfl, hsame⟩
    · refine .inr (.inl ⟨fun r w hw => ?_, by simp, by simp, hsame⟩)
      cases hw
      exact hne r rfl rfl
  · exact .inr (.inr (.inl ⟨rfl, engine_flags (s := afterEvent s) hstep⟩))
  · exact .inr (.inr (.inr ⟨rfl, rfl, rfl, rfl, rfl⟩))

/-- The event a write of `v` to a register is. -/
theorem write_offsetOf_inj {r r' : Reg} {v v' : Word} :
    Event.write (offsetOf r) 4 v = .write (offsetOf r') 4 v' ↔ r = r' ∧ v = v' := by
  simp only [Event.write.injEq, true_and]
  exact ⟨fun ⟨hr, hv⟩ => ⟨offsetOf_injective hr, hv⟩, fun ⟨hr, hv⟩ => ⟨congrArg offsetOf hr, hv⟩⟩

/-- Settles O18: the four cases of `step_flags`. -/
theorem busyAndDoneAreWrittenOnlyAsStated : Obligations.BusyAndDoneAreWrittenOnlyAsStated := by
  intro s t e rest hevents hstep
  have he : nextEvent s = e := by simp [nextEvent, hevents]
  have hflags := step_flags hstep
  rw [he] at hflags
  rw [show (0x04 : BitVec 8) = offsetOf .cmd from rfl, show (0x08 : BitVec 8) = offsetOf .status from rfl]
  obtain ⟨r, v, rfl, hbusy, hdone, -⟩ | ⟨hne, heng, hres, hbusy, hdone, -⟩ | ⟨rfl, hbusy, hdone, -⟩ |
    ⟨rfl, hbusy, hdone, -⟩ := hflags
  · rw [writeReg_busy] at hbusy
    rw [writeReg_done] at hdone
    simp only [afterEvent_busy, afterEvent_done] at hbusy hdone
    simp only [ne_eq, write_offsetOf_inj, hbusy, hdone]
    by_cases hcmd : r = .cmd
    · simp [hcmd]
    · by_cases hstatus : r = .status <;> simp [hcmd, hstatus]
  · simp [hbusy, hdone, heng, hres, hne]
  · simp [hbusy, hdone]
  · simp [hbusy, hdone]

/-- The writes that are dropped while a command is pending (R66, R67), by their registers. -/
theorem write_of_dropped_offset_iff {e : Event} :
    (∃ off v, e = .write off 4 v ∧ off ∈ [0x04, 0x0C, 0x10, (0x14 : BitVec 8)]) ↔
      ∃ r ∈ [Reg.cmd, .data0, .data1, .data2], ∃ v, e = .write (offsetOf r) 4 v := by
  have hoff (off : BitVec 8) : off ∈ [0x04, 0x0C, 0x10, (0x14 : BitVec 8)] ↔
      ∃ r ∈ [Reg.cmd, .data0, .data1, .data2], off = offsetOf r := by simp [offsetOf]
  constructor
  · rintro ⟨off, v, rfl, hmem⟩
    obtain ⟨r, hr, rfl⟩ := (hoff off).mp hmem
    exact ⟨r, hr, v, rfl⟩
  · rintro ⟨r, hr, v, rfl⟩
    exact ⟨_, v, rfl, (hoff _).mpr ⟨r, hr, rfl⟩⟩

/-- Settles O19: the four cases of `step_flags`. -/
theorem errAndLostAreStickyUntilClearedByTheHost : Obligations.ErrAndLostAreStickyUntilClearedByTheHost := by
  intro s t e rest hevents hstep
  have he : nextEvent s = e := by simp [nextEvent, hevents]
  have hflags := step_flags hstep
  rw [he] at hflags
  rw [show (0x08 : BitVec 8) = offsetOf .status from rfl, write_of_dropped_offset_iff]
  obtain ⟨r, v, rfl, -, -, herr, hlost⟩ | ⟨hne, heng, hres, -, -, herr, hlost⟩ | ⟨rfl, -, -, herr, hlost⟩ |
    ⟨rfl, -, -, herr, hlost⟩ := hflags
  · rw [writeReg_err] at herr
    rw [writeReg_lost] at hlost
    simp only [afterEvent_busy, afterEvent_err, afterEvent_lost] at herr hlost
    simp only [write_offsetOf_inj, herr, hlost]
    by_cases hstatus : r = .status
    · simp +contextual [hstatus]
    · simp +contextual [hstatus]
  · simp +contextual [herr, hlost, heng, hres, hne]
  · simp +contextual [herr, hlost]
  · simp [herr, hlost]

end Sys2Proof.Machine
end

section
/-! The register window under host accesses (R65 to R70), and the engine's turn (R72, R246): what a step does by its
event. -/

namespace Sys2Proof.Machine

/-! ## The step by its event (R73) -/

theorem step_of_events_cons {s : State} {e : Event} {rest : List Event} (h : s.events = e :: rest) :
    step s = handleEvent e { s with events := rest } := by
  simp [step, h]

/-- An access of another size or off a multiple of 4 is illegal (R65). -/
theorem legalAccess_eq_false {off : BitVec 8} {size : Nat} (h : size ≠ 4 ∨ off.toNat % 4 ≠ 0) :
    legalAccess off size = false := by
  simpa [legalAccess, imp_iff_not_or] using h

/-- A legal write is the register's write, answered without a bus error (R66 to R70). -/
theorem step_of_legal_write {s : State} {off : BitVec 8} {v : Word} {rest : List Event}
    (he : s.events = .write off 4 v :: rest) (hoff : off.toNat % 4 = 0) :
    step s = .next { writeOffset off v { s with events := rest } with resp := answered none } := by
  simp [step_of_events_cons he, handleEvent, busWrite, legalAccess, hoff, answered]

theorem writeOffset_offsetOf (r : Reg) (v : Word) (s : State) : writeOffset (offsetOf r) v s = writeReg r v s := by
  simp [writeOffset, regAt_offsetOf]

theorem step_of_register_write {s : State} (r : Reg) {v : Word} {rest : List Event}
    (he : s.events = .write (offsetOf r) 4 v :: rest) :
    step s = .next { writeReg r v { s with events := rest } with resp := answered none } := by
  rw [step_of_legal_write he (by cases r <;> rfl), writeOffset_offsetOf]

/-! ## Writes and BUSY -/

/-- A CMD or DATA write while BUSY = 1 is dropped (R66, R67). -/
theorem writeReg_dropped {r : Reg} (hr : r ∈ [Reg.cmd, .data0, .data1, .data2]) (v : Word) {s : State}
    (hb : s.busy = true) : writeReg r v s = dropWrite s := by
  simp only [List.mem_cons, List.not_mem_nil, or_false] at hr
  obtain rfl | rfl | rfl | rfl := hr <;> simp [writeReg, writeCmd, hb]

theorem step_of_dropped_write {s : State} {off : BitVec 8} {v : Word} {rest : List Event} (hb : s.busy = true)
    (hoff : off ∈ [0x04, 0x0C, 0x10, (0x14 : BitVec 8)]) (he : s.events = .write off 4 v :: rest) :
    step s = .next { s with lost := true, resp := answered none, events := rest } := by
  obtain ⟨r, hr, w, hw⟩ := write_of_dropped_offset_iff.mp ⟨off, v, rfl, hoff⟩
  rw [hw] at he
  rw [step_of_register_write r he, writeReg_dropped (s := { s with events := rest }) hr w hb]
  rfl

/-- Of the registers six can be written; a write elsewhere, a reserved offset included, is ignored (R70). -/
theorem writeOffset_ignored {off : BitVec 8} (h : off ∉ [0x04, 0x08, 0x0C, 0x10, 0x14, (0x30 : BitVec 8)])
    (v : Word) (s : State) : writeOffset off v s = s := by
  cases hreg : regAt off with
  | none => simp [writeOffset, hreg]
  | some r =>
    obtain rfl := offsetOf_of_regAt hreg
    rw [writeOffset_offsetOf]
    cases r with
    | cmd | status | data0 | data1 | data2 | ie => simp [offsetOf] at h
    | _ => rfl

/-- While BUSY = 1 a legal write reaches DONE, ERR, LOST and IE only: a CMD or DATA write is dropped (R66 to R70). -/
theorem writeOffset_while_busy (off : BitVec 8) (v : Word) {s : State} (hb : s.busy = true) :
    ∃ done err lost ie, writeOffset off v s = { s with done := done, err := err, lost := lost, ie := ie } := by
  obtain h | ⟨-, h⟩ | ⟨hidle, -⟩ | ⟨hidle, -⟩ | h | h := writeOffset_cases off v s
  · exact ⟨_, _, _, _, h⟩
  · exact ⟨_, _, _, _, h⟩
  · simp [hb] at hidle
  · simp [hb] at hidle
  · exact ⟨_, _, _, _, h⟩
  · exact ⟨_, _, _, _, h⟩

/-- A bus write while BUSY = 1, legal or not, reaches also the port's answer (R65). -/
theorem busWrite_while_busy (addr : BitVec 8) (size : Nat) (v : Word) {s : State} (hb : s.busy = true) :
    ∃ done err lost ie resp, busWrite addr size v s =
      { s with done := done, err := err, lost := lost, ie := ie, resp := resp } := by
  obtain ⟨-, h⟩ | ⟨-, h⟩ := busWrite_cases addr size v s
  · exact ⟨_, _, _, _, _, h⟩
  · obtain ⟨_, _, _, _, hw⟩ := writeOffset_while_busy addr v hb
    rw [hw] at h
    exact ⟨_, _, _, _, _, h⟩

/-! ## The engine's turn (R72) -/

theorem engine_of_busy {s : State} {i : Instr} (hb : s.busy = true) (hi : decode s.pend = some i) :
    engine s = exec i s := by
  simp [engine, execute, hb, hi]

theorem engine_of_idle {s : State} (hb : s.busy = false) : engine s = .next s := by
  simp [engine, hb]

/-! ## The statements -/

/-- Settles O12: a legal write at an offset that is none of the six writes no register. -/
theorem otherWritesAreIgnored : Obligations.OtherWritesAreIgnored := by
  intro s off v rest he hoff hne
  rw [step_of_legal_write he hoff, writeOffset_ignored hne]

/-- Settles O20: of the four kinds of event only the host's accesses are left, and a read changes the port's answer
only. -/
theorem hostCannotDisturbAPendingCommand : Obligations.HostCannotDisturbAPendingCommand := by
  intro s t hstep hb heng hres
  obtain ⟨addr, size, -, rfl⟩ | ⟨addr, size, v, -, rfl⟩ | ⟨he, -⟩ | ⟨he, -⟩ := step_cases hstep
  · rw [busRead_eq]
    rfl
  · obtain ⟨_, _, _, _, _, hw⟩ := busWrite_while_busy addr size v (s := afterEvent s) hb
    rw [hw]
    rfl
  · exact absurd he heng
  · exact absurd he hres

/-- Settles O5: the engine's turn is `engine`, which executes the pending command or is idle. -/
theorem stepRunsThePendingCommand : Obligations.StepRunsThePendingCommand := by
  refine ⟨fun s i hb hi => ⟨fun he => ?_, fun rest he => ?_⟩, fun s hb he => ?_⟩
  · simp only [step, he, engine_of_busy hb hi]
  · rw [step_of_events_cons he]
    exact engine_of_busy hb hi
  · rw [step_eq_handleEvent, he]
    exact engine_of_idle hb

/-- Settles O9: the register write to CMD on both values of BUSY. -/
theorem cmdWriteIsAcceptedOrDropped : Obligations.CmdWriteIsAcceptedOrDropped := by
  intro s v rest he
  by_cases hb : s.busy = true
  · rw [if_pos hb, step_of_dropped_write hb (by simp) he]
  · rw [if_neg hb, step_of_register_write .cmd he]
    simp [writeReg, writeCmd, acceptCommand, hb]

/-- Settles O10: each of the three registers on both values of BUSY. -/
theorem dataWriteReachesItsRegisterOrIsDropped : Obligations.DataWriteReachesItsRegisterOrIsDropped := by
  refine fun s v rest => ⟨fun hb off hoff he => ?_, fun hb => ⟨fun he => ?_, fun he => ?_, fun he => ?_⟩⟩
  · exact step_of_dropped_write hb (by simpa using .inr hoff) he
  · rw [step_of_register_write .data0 he]
    simp [writeReg, hb]
  · rw [step_of_register_write .data1 he]
    simp [writeReg, hb]
  · rw [step_of_register_write .data2 he]
    simp [writeReg, hb]

/-- Settles O11: neither register's write looks at BUSY. -/
theorem statusAndIeWrites : Obligations.StatusAndIeWrites := by
  refine fun s v rest => ⟨fun he => ?_, fun he => ?_⟩
  · have clear (old bit : Bool) : (old && !bit) = if bit = true then false else old := by cases bit <;> simp
    rw [step_of_register_write .status he]
    simp only [writeReg, writeStatus, clear]
  · rw [step_of_register_write .ie he, writeReg, BitVec.setWidth_eq_extractLsb' (by decide)]

/-- Settles O13: an illegal access does not reach the registers. -/
theorem illegalAccessGetsTheBusError : Obligations.IllegalAccessGetsTheBusError := by
  intro s off size v rest h
  have hillegal := legalAccess_eq_false h
  refine ⟨fun he => ?_, fun he => ?_⟩
  · simp [step_of_events_cons he, handleEvent, busRead, hillegal]
  · simp [step_of_events_cons he, handleEvent, busWrite, hillegal]

end Sys2Proof.Machine
end

section
/-! The encoding of the commands (R80 to R83, R88, R89): a word decodes to a command exactly when its fields are the
command's, and it decodes at all exactly when a row of the opcode map fits its fields. -/

namespace Sys2Proof

/-! ## The decoder by the three fields of a word (R80) -/

theorem some_eq_noArg_iff {a : BitVec 16} {i j : Instr} : some i = noArg a j ↔ a = 0 ∧ i = j := by
  simp [noArg, @eq_comm _ i]

/-- The opcode map gives a command exactly on its OP and its ARG (R82). -/
theorem decodeOp_eq_some_iff {op : BitVec 8} {a : BitVec 16} {i : Instr} :
    decodeOp op a = some i ↔ op = i.opcode ∧ a = i.arg := by
  constructor
  · intro h
    rw [← BitVec.toNat_inj]
    -- this way round, each arm's equation puts the arm's command for `i`
    replace h := h.symm
    unfold decodeOp at h
    split at h <;> simp only [some_eq_noArg_iff, Option.some.injEq, reduceCtorEq] at h <;>
      simp [*, Instr.opcode, Instr.arg]
  · rintro ⟨rfl, rfl⟩
    cases i <;> rfl

theorem decode_eq_some_iff {w : Word} {i : Instr} :
    decode w = some i ↔ rsvField w = 0 ∧ opField w = i.opcode ∧ argField w = i.arg := by
  simp [decode, decodeOp_eq_some_iff]

theorem fields_inj {op op' rsv rsv' : BitVec 8} {a a' : BitVec 16} :
    (op ++ rsv ++ a : Word) = op' ++ rsv' ++ a' ↔ op = op' ∧ rsv = rsv' ∧ a = a' := by
  constructor
  · intro h
    exact ⟨by simpa only [opField_append] using congrArg opField h,
      by simpa only [rsvField_append] using congrArg rsvField h,
      by simpa only [argField_append] using congrArg argField h⟩
  · rintro ⟨rfl, rfl, rfl⟩
    rfl

/-- Settles O1: the fields of the word of a command are its OP, 0 and its ARG. -/
theorem decodeOfEncodeIsTheCommand : Obligations.DecodeOfEncodeIsTheCommand := fun i =>
  decode_eq_some_iff.mpr ⟨rsvField_encode i, opField_encode i, argField_encode i⟩

/-- Settles O2: a word is its three fields, and the decoder fixes all of them. -/
theorem encodeOfDecodeIsTheWord : Obligations.EncodeOfDecodeIsTheWord := by
  intro w i h
  obtain ⟨hrsv, hop, harg⟩ := decode_eq_some_iff.mp h
  rw [word_eq_fields w, hrsv, hop, harg, encode]

/-! ## The rows of the opcode map (R82) -/

/-- The fields that the row of command `i` asks of a word: its OP, RSV = 0, and ARG = 0 where it takes no operand. -/
def FitsRow (i : Instr) (w : Word) : Prop :=
  opField w = i.opcode ∧ rsvField w = 0 ∧ (i.kind = .none → argField w = 0)

theorem fitsRow_of_decode {w : Word} {i : Instr} (h : decode w = some i) : FitsRow i w := by
  obtain ⟨hrsv, hop, harg⟩ := decode_eq_some_iff.mp h
  have hnone : i.kind = .none → i.arg = 0 := by cases i <;> simp [Instr.kind, Instr.arg]
  exact ⟨hop, hrsv, fun hk => harg.trans (hnone hk)⟩

/-- Any ARG that the row of a command allows is the ARG of a command of the same row. -/
theorem exists_command_with_arg {i : Instr} {a : BitVec 16} (h : i.kind = .none → a = 0) :
    ∃ j : Instr, j.opcode = i.opcode ∧ j.mnemonic = i.mnemonic ∧ j.kind = i.kind ∧ j.arg = a := by
  cases i with
  | cnt _ => exact ⟨.cnt a, rfl, rfl, rfl, rfl⟩
  | wrf _ => exact ⟨.wrf a, rfl, rfl, rfl, rfl⟩
  | rdf _ => exact ⟨.rdf a, rfl, rfl, rfl, rfl⟩
  | rdn _ => exact ⟨.rdn a, rfl, rfl, rfl, rfl⟩
  | wrn _ => exact ⟨.wrn a, rfl, rfl, rfl, rfl⟩
  | rdc _ => exact ⟨.rdc a, rfl, rfl, rfl, rfl⟩
  | wrb _ => exact ⟨.wrb a, rfl, rfl, rfl, rfl⟩
  | rdb _ => exact ⟨.rdb a, rfl, rfl, rfl, rfl⟩
  | enc _ => exact ⟨.enc a, rfl, rfl, rfl, rfl⟩
  | dbit _ => exact ⟨.dbit a, rfl, rfl, rfl, rfl⟩
  | _ => exact ⟨_, rfl, rfl, rfl, (h rfl).symm⟩

theorem exists_decode_of_fitsRow {w : Word} {i : Instr} (h : FitsRow i w) :
    ∃ j, decode w = some j ∧ j.mnemonic = i.mnemonic := by
  obtain ⟨hop, hrsv, harg⟩ := h
  obtain ⟨j, hjop, hjm, -, hjarg⟩ := exists_command_with_arg harg
  exact ⟨j, decode_eq_some_iff.mpr ⟨hrsv, hop.trans hjop.symm, hjarg.symm⟩, hjm⟩

theorem decode_eq_none_iff {w : Word} : decode w = none ↔ ∀ i, ¬ FitsRow i w := by
  rw [Option.eq_none_iff_forall_ne_some]
  constructor
  · intro h i hi
    obtain ⟨j, hj, -⟩ := exists_decode_of_fitsRow hi
    exact h j hj
  · exact fun h i hi => h i (fitsRow_of_decode hi)

/-- One command for each row of the opcode map, in its order. -/
def rowCommands : List Instr :=
  [.nop, .init, .clrf, .cnt 0, .wrf 0, .rdf 0, .build, .rdn 0, .wrn 0, .setroot, .tchk, .genc, .rdc 0,
    .clrb, .setw, .setr, .wrb 0, .rdb 0, .enc 0, .drst, .dbit 0, .decs, .dend]

theorem mem_rowCommands_of_arg_eq_zero {i : Instr} (h : i.arg = 0) : i ∈ rowCommands := by
  cases i <;> simp_all [rowCommands, Instr.arg]

/-- The bits of ARG that the row of an operand kind masks in: all of them, which then are 0, or none. -/
def argMask : ArgKind → BitVec 16
  | .none => 0xFFFF
  | _ => 0

/-- The row of a command: its mnemonic, its match and its mask. -/
def tableRow (i : Instr) : String × Word × Word :=
  (i.mnemonic, i.opcode ++ 0#8 ++ 0#16, 0xFF#8 ++ 0xFF#8 ++ argMask i.kind)

theorem opcodeRows_eq_map_tableRow : opcodeRows = rowCommands.map tableRow := rfl

theorem tableRow_mem_opcodeRows (i : Instr) : tableRow i ∈ opcodeRows := by
  obtain ⟨k, hop, hm, hkind, harg⟩ := exists_command_with_arg (i := i) (a := 0) fun _ => rfl
  rw [opcodeRows_eq_map_tableRow, List.mem_map]
  exact ⟨k, mem_rowCommands_of_arg_eq_zero harg, by rw [tableRow, tableRow, hop, hm, hkind]⟩

theorem exists_tableRow_of_mem_opcodeRows {row : String × Word × Word} (h : row ∈ opcodeRows) :
    ∃ i, tableRow i = row := by
  rw [opcodeRows_eq_map_tableRow, List.mem_map] at h
  obtain ⟨i, -, hi⟩ := h
  exact ⟨i, hi⟩

theorem and_argMask_eq_zero_iff {k : ArgKind} {a : BitVec 16} : a &&& argMask k = 0 ↔ (k = .none → a = 0) := by
  have hall : a &&& 0xFFFF#16 = a := BitVec.and_allOnes
  cases k <;> simp [argMask, hall]

theorem fields_and (op op' rsv rsv' : BitVec 8) (a a' : BitVec 16) :
    (op ++ rsv ++ a : Word) &&& (op' ++ rsv' ++ a' : Word) = (op &&& op') ++ (rsv &&& rsv') ++ (a &&& a') :=
  BitVec.and_append.trans (congrArg (· ++ _) BitVec.and_append)

/-- A row selects a word, (w & mask) = match, exactly when the word's fields fit it. -/
theorem tableRow_selects_iff {w : Word} {i : Instr} :
    w &&& (tableRow i).2.2 = (tableRow i).2.1 ↔ FitsRow i w := by
  have hall (x : BitVec 8) : x &&& 0xFF#8 = x := BitVec.and_allOnes
  calc w &&& (tableRow i).2.2 = (tableRow i).2.1
    _ ↔ (opField w ++ rsvField w ++ argField w : Word) &&& (tableRow i).2.2 = (tableRow i).2.1 := by
      rw [← word_eq_fields]
    _ ↔ FitsRow i w := by
      rw [tableRow, fields_and, fields_inj, hall, hall, FitsRow, ← and_argMask_eq_zero_iff]
      rfl

/-- Settles O3: the rows are the `tableRow`s of the commands, and a word that fits one decodes to its command. -/
theorem wordsDecodeByTheOpcodeTable : Obligations.WordsDecodeByTheOpcodeTable := by
  refine ⟨fun w => ⟨fun h => ?_, fun ⟨row, hrow, hsel⟩ => ?_⟩, fun w i hi row hrow hsel => ?_⟩
  · obtain ⟨i, hi⟩ := Option.isSome_iff_exists.mp h
    exact ⟨tableRow i, tableRow_mem_opcodeRows i, tableRow_selects_iff.mpr (fitsRow_of_decode hi)⟩
  · obtain ⟨i, rfl⟩ := exists_tableRow_of_mem_opcodeRows hrow
    obtain ⟨j, hj, -⟩ := exists_decode_of_fitsRow (tableRow_selects_iff.mp hsel)
    simp [hj]
  · obtain ⟨k, rfl⟩ := exists_tableRow_of_mem_opcodeRows hrow
    obtain ⟨j, hj, hm⟩ := exists_decode_of_fitsRow (tableRow_selects_iff.mp hsel)
    obtain rfl : i = j := Option.some.inj (hi.symm.trans hj)
    exact hm.symm

/-- Settles O4: each word is evaluated. -/
theorem wordsOfTheSpecDecode : Obligations.WordsOfTheSpecDecode := by
  unfold Obligations.WordsOfTheSpecDecode
  decide

end Sys2Proof
end

section
/-! Completion of a command (R85, R231): the ILLEGAL word (R83), the frame of every failure, and the operand out of its
kind (R84). -/

namespace Sys2Proof.Machine

/-! ## ILLEGAL words (R83) -/

theorem definedOps_eq_map_opcode : definedOps = rowCommands.map Instr.opcode := by decide

theorem mem_definedOps_iff {op : BitVec 8} : op ∈ definedOps ↔ ∃ i : Instr, op = i.opcode := by
  constructor
  · intro h
    rw [definedOps_eq_map_opcode, List.mem_map] at h
    obtain ⟨i, -, hi⟩ := h
    exact ⟨i, hi.symm⟩
  · rintro ⟨i, rfl⟩
    cases i <;> simp [definedOps, Instr.opcode]

theorem opcode_mem_noArgOps_iff (i : Instr) : i.opcode ∈ noArgOps ↔ i.kind = .none := by
  cases i <;> simp [noArgOps, Instr.opcode, Instr.kind]

/-- A word is ILLEGAL when no row of the opcode map fits it. -/
theorem illegalWord_iff {w : Word} : IllegalWord w ↔ ∀ i, ¬ FitsRow i w := by
  change (opField w ∉ definedOps ∨ rsvField w ≠ 0 ∨ opField w ∈ noArgOps ∧ argField w ≠ 0) ↔ _
  constructor
  · rintro h i ⟨hop, hrsv, harg⟩
    rw [hop, opcode_mem_noArgOps_iff] at h
    obtain hundef | hrsv' | ⟨hnone, harg'⟩ := h
    · exact hundef (mem_definedOps_iff.mpr ⟨i, rfl⟩)
    · exact hrsv' hrsv
    · exact harg' (harg hnone)
  · contrapose!
    rintro ⟨hdef, hrsv, harg⟩
    obtain ⟨i, hop⟩ := mem_definedOps_iff.mp hdef
    exact ⟨i, hop, hrsv, fun hnone => harg (by rwa [hop, opcode_mem_noArgOps_iff])⟩

theorem engine_of_undecoded {s : State} (hb : s.busy = true) (h : decode s.pend = none) :
    engine s = .next (failed .illegal s) := by
  simp [engine, execute, hb, h, finish_error]

/-- Settles O6: the ILLEGAL words are those no row fits, and the engine completes what does not decode with ILLEGAL. -/
theorem illegalWordCompletesWithIllegal : Obligations.IllegalWordCompletesWithIllegal := by
  have hiff (w : Word) : IllegalWord w ↔ decode w = none := illegalWord_iff.trans decode_eq_none_iff.symm
  refine ⟨fun s rest hb he hw => ?_, hiff, by decide, rfl⟩
  rw [step_of_events_cons he]
  exact engine_of_undecoded hb ((hiff _).mp hw)

/-! ## Every command completes (R85, R231) -/

/-- Settles O25: a success leaves ERR to `Commits.writes`, a failure is `failed`. -/
theorem everyCommandCompletesAndAFailureChangesNothingElse :
    Obligations.EveryCommandCompletesAndAFailureChangesNothingElse := by
  intro i s
  have hexec : exec i s = .next (complete s (runOf i s)) := exec_eq_finish_runOf i s
  refine ⟨_, hexec, ?_⟩
  obtain ⟨s1, hc, ht⟩ | ⟨s1, x, hc, ht⟩ | ⟨c, hne, ht⟩ := exec_cases hexec
  · obtain ⟨-, -, -, herr⟩ := hc.writes
    simp [ht, herr]
  · obtain ⟨-, -, -, herr⟩ := hc.writes
    simp [ht, herr]
  · simp [ht, hne, failed]

/-! ## The operand kinds (R81, R84) -/

theorem error_of_check_false {legal : Bool} {c : ErrCode} {r : Run} (h : legal = false) :
    (if !legal then .error c else r) = .error c := by
  simp [h]

/-- The check of the operand kind is the first of every command that takes an operand. -/
theorem runOf_of_not_wellFormed {i : Instr} {s : State} (h : i.wellFormed s.buf.length = false) :
    runOf i s = .error .range := by
  cases i with
  | cnt a => exact error_of_check_false h
  | wrf a => exact error_of_check_false h
  | rdf a => exact error_of_check_false h
  | rdn a => exact error_of_check_false h
  | wrn a => exact error_of_check_false h
  | rdc a => exact error_of_check_false h
  | wrb a => exact error_of_check_false h
  | enc a => exact error_of_check_false h
  | dbit a => exact error_of_check_false h
  | rdb a =>
    have hlen : s.buf.length ≤ a.toNat := by simpa [Instr.wellFormed, Instr.kind, Instr.arg, ArgKind.legal] using h
    simp [runOf, runRdb, List.getElem?_eq_none hlen]
  | _ => simp [Instr.wellFormed, Instr.kind, Instr.arg, ArgKind.legal] at h

/-- Settles O28: the run raises RANGE, whatever the state. -/
theorem argOutsideItsKindIsRange : Obligations.ArgOutsideItsKindIsRange := by
  intro i s h
  rw [exec_eq_finish_runOf, runOf_of_not_wellFormed h]
  exact finish_error s (by decide)

end Sys2Proof.Machine
end

section
/-! The frequency table commands CLRF, CNT, WRF and RDF (R100 to R105). A success is read off what the command commits;
what none of the four writes is read off the statements on all commands. -/

namespace Sys2Proof.Machine

/-! ## From a command's run to its answer (R85) -/

theorem exec_of_commits {i : Instr} {s s1 : State} (h : Commits i s s1 none) : exec i s = .next (succeeded s1) := by
  rw [exec_eq_finish_runOf, runOf_eq_ok_iff.mpr h]
  exact finish_quiet s s1

theorem exec_of_error {i : Instr} {s : State} {c : ErrCode} (h : runOf i s = .error c) :
    exec i s = .next (failed c s) := by
  rw [exec_eq_finish_runOf, h]
  exact finish_error s (runOf_error_ne_ok h)

/-! ## The counters -/

theorem nsymCount_eq_zero {freq : Vector Word 256} (h : ∀ x : Fin 256, freq[x.val] = 0) : nsymCount freq = 0 := by
  rw [nsymCountsTheNonzeroCounters, Finset.card_eq_zero, Finset.filter_eq_empty_iff]
  exact fun x _ hne => hne (h x)

/-- A counter below its bound is increased without a carry out (R104). -/
theorem toNat_add_one_of_ne_max {w : Word} (h : w ≠ 0xFFFFFFFF) : (w + 1).toNat = w.toNat + 1 := by
  bv_omega

/-- CNT on a counter at its bound (R101). -/
theorem runCnt_overflow {a : BitVec 16} {s : State} (hlegal : symLegal a = true)
    (hmax : symEntry s.freq (symOf a) = 0xFFFFFFFF) : runCnt a s = .error .overflow := by
  simp [runCnt, hlegal, hmax]

/-! ## The statements -/

/-- Settles O30: below the bound CNT commits the sum, which has no carry out; at the bound its run raises OVERFLOW. -/
theorem cntCountsOneSymbolAndNeverWraps : Obligations.CntCountsOneSymbolAndNeverWraps := by
  intro s a h
  have hlegal := symLegal_of_lt h
  rw [← symEntry_symOf s.freq h, ← setSymEntry_symOf s.freq _ h]
  refine ⟨fun hne => ⟨?_, toNat_add_one_of_ne_max hne⟩, fun hmax => ?_⟩
  · exact exec_of_commits ⟨hlegal, hne, rfl, rfl⟩
  · exact exec_of_error (i := .cnt a) (runCnt_overflow hlegal hmax)

/-- None of the four writes the tree, the code table, TV or CTV (R31, R32, R37 to R41, R48, R49). -/
theorem frequency_mnemonic_not_tree_writer :
    ∀ m ∈ ["CLRF", "CNT", "WRF", "RDF"],
      m ∉ ["BUILD", "WRN", "SETROOT", "TCHK", "GENC", "DRST", "DBIT", "DECS", "INIT"] := by decide

/-- Settles O32: the commands that write these fields, by `arraysAndPointersAreWrittenOnlyByTheirCommands` and
`validityFlagsAreWrittenOnlyAsStated`, are others. -/
theorem frequencyCommandsLeaveTheTree : Obligations.FrequencyCommandsLeaveTheTree := by
  intro i s t hi h
  have hother := frequency_mnemonic_not_tree_writer _ hi
  obtain ⟨-, hnode, hcodes, -, hroot, -, -, hdnode, -⟩ := arraysAndPointersAreWrittenOnlyByTheirCommands i s t h
  obtain ⟨htv, hctv⟩ := validityFlagsAreWrittenOnlyAsStated i s t h
  simp only [List.mem_cons, List.not_mem_nil, or_false, not_or] at hother
  simp only [List.mem_cons, List.not_mem_nil, hother, or_false, and_false, if_false, imp_false, not_or, not_not]
    at hnode hcodes hroot hdnode htv hctv
  obtain ⟨hnode, hnw⟩ := hnode
  obtain ⟨hroot, hnnodes⟩ := hroot
  exact ⟨hnode, hnw, hroot, hnnodes, hdnode, hcodes, htv, hctv⟩

/-- Settles O29: CLRF commits a table of zeros, whose count of non-zero entries is 0. -/
theorem clrfZeroesEveryCounter : Obligations.ClrfZeroesEveryCounter := by
  intro s
  have hzero (x : Fin 256) : (clearFreq s).freq[x.val] = 0 := by simp
  exact ⟨(clearFreq s).freq, exec_of_commits ⟨rfl, rfl⟩, hzero, nsymCount_eq_zero hzero⟩

/-- Settles O31: both commands commit at the entry of their symbol. -/
theorem wrfWritesAndRdfReadsOneCount : Obligations.WrfWritesAndRdfReadsOneCount := by
  intro s a h
  have hlegal := symLegal_of_lt h
  rw [← symEntry_symOf s.freq h, ← setSymEntry_symOf s.freq _ h]
  exact ⟨exec_of_commits ⟨hlegal, rfl, rfl⟩, exec_of_commits ⟨hlegal, rfl, rfl⟩⟩

end Sys2Proof.Machine
end

section
/-! The tree storage commands RDN, WRN, SETROOT and TCHK (R127 to R130): each success is what the command commits. -/

namespace Sys2Proof.Machine

/-- SETROOT on a value out of range, in any of the three ways of R129. -/
theorem runSetroot_out_of_range {s : State} (h : 510 < s.data0.toNat ∨ s.data1 = 0 ∨ 511 < s.data1.toNat) :
    runSetroot s = .error .range := by
  obtain h | h | h := h <;> simp [runSetroot, h]

theorem runTchk_malformed {s : State} (h : wellFormedTree s.node s.root.toNat s.nnodes.toNat = false) :
    runTchk s = .error .treefmt := by
  simp [runTchk, h]

/-- Settles O37: both commands commit at their node, which node RAM has. -/
theorem rdnReadsAndWrnWritesANode : Obligations.RdnReadsAndWrnWritesANode := by
  intro s a h
  have hlegal := nodeLegal_of_lt h
  rw [← nodeEntry_of_lt s.node h, ← nodeEntry_of_lt s.nw h, ← setNodeEntry_of_lt s.node _ h,
    ← setNodeEntry_of_lt s.nw _ h, ← nodeOf_toNat h]
  exact ⟨exec_of_commits ⟨hlegal, rfl, rfl⟩, exec_of_commits ⟨hlegal, rfl, rfl⟩⟩

/-- Settles O38: within the bounds neither register loses a bit; outside them the run raises RANGE. -/
theorem setrootSetsRootAndCount : Obligations.SetrootSetsRootAndCount := by
  refine fun s => ⟨fun hroot hpos hcount => ?_, fun h => exec_of_error (runSetroot_out_of_range h)⟩
  have hne : s.data1.toNat ≠ 0 := fun h => hpos (BitVec.eq_of_toNat_eq h)
  refine ⟨_, exec_of_commits ⟨⟨hroot, hne, hcount⟩, rfl, rfl⟩, ?_, ?_, rfl, rfl⟩
  · exact (BitVec.toNat_setWidth 9 s.data0).trans (Nat.mod_eq_of_lt (by omega))
  · exact (BitVec.toNat_setWidth 10 s.data1).trans (Nat.mod_eq_of_lt (by omega))

/-- Settles O40: TCHK commits on a well-formed tree, and raises TREEFMT on any other. -/
theorem tchkAcceptsExactlyWellFormedTrees : Obligations.TchkAcceptsExactlyWellFormedTrees :=
  fun _ => ⟨fun h => exec_of_commits ⟨h, rfl, rfl⟩, fun h => exec_of_error (runTchk_malformed h)⟩

end Sys2Proof.Machine
end

section
/-! What BUILD answers (R122): EMPTY, OVERFLOW or the tree, by the number of symbols present and the exact total. -/

namespace Sys2Proof.Machine

/-! ## The counters -/

/-- The model's list of symbols present is R122's, as bytes. -/
theorem presentSyms_eq_map_leafSymbols (freq : Vector Word 256) :
    presentSyms freq = (leafSymbols freq).map fun x => BitVec.ofNat 8 x.val := by
  have hsyms : allSyms = (List.finRange 256).map fun x => BitVec.ofNat 8 x.val := by
    rw [allSyms, ← List.map_coe_finRange_eq_range, List.map_map]
    rfl
  rw [presentSyms_eq_filter, hsyms, List.filter_map, leafSymbols]
  congr 1
  refine List.filter_congr fun x _ => ?_
  rw [Bool.eq_iff_iff]
  simp [symEntry]

theorem freqTotal_eq_exactTotal (freq : Vector Word 256) : freqTotal freq = exactTotal freq := by
  have hlist : freq.toList.map BitVec.toNat = (List.finRange 256).map fun x => freq[x.val].toNat :=
    List.ext_getElem (by simp) (by simp)
  rw [freqTotal, exactTotal, hlist]

/-- A symbol that is not present adds nothing to the total. -/
theorem sum_filter_ne_zero {α : Type} (f : α → Word) (l : List α) :
    ((l.filter fun x => f x ≠ 0).map fun x => (f x).toNat).sum = (l.map fun x => (f x).toNat).sum := by
  induction l with
  | nil => rfl
  | cons x l ih => by_cases h : f x = 0 <;> simp_all

/-- The total is the sum over the symbols present. -/
theorem sum_presentSyms (freq : Vector Word 256) :
    ((presentSyms freq).map fun x => (symEntry freq x).toNat).sum = exactTotal freq := by
  rw [exactTotal, ← sum_filter_ne_zero (fun x : Fin 256 => freq[x.val]), presentSyms_eq_map_leafSymbols, List.map_map]
  congr 1
  refine List.map_congr_left fun x _ => ?_
  simp [symEntry]

/-! ## The three answers -/

theorem exec_build_of_empty {s : State} (h : nsymCount s.freq = 0) : exec .build s = .next (failed .empty s) :=
  exec_of_error (by simp [runOf, runBuild, h])

theorem exec_build_of_overflow {s : State} (hn : nsymCount s.freq ≠ 0) (h : 0xFFFFFFFF < exactTotal s.freq) :
    exec .build s = .next (failed .overflow s) :=
  exec_of_error (by simp [runOf, runBuild, hn, freqTotal_eq_exactTotal, h])

theorem exec_build_of_fits {s : State} (hn : nsymCount s.freq ≠ 0) (h : exactTotal s.freq ≤ 0xFFFFFFFF) :
    exec .build s = .next (succeeded (installTree (buildTree s) s)) :=
  exec_of_commits ⟨hn, by rwa [freqTotal_eq_exactTotal], rfl, rfl⟩

theorem exactTotal_eq_zero {freq : Vector Word 256} (h : nsymCount freq = 0) : exactTotal freq = 0 := by
  rw [← sum_presentSyms, List.eq_nil_of_length_eq_zero h]
  rfl

/-- Settles O33: the two failing answers; a total above the bound has a symbol present. -/
theorem buildRefusesEmptyAndOverflow : Obligations.BuildRefusesEmptyAndOverflow := by
  refine fun s => ⟨fun hzero => exec_build_of_empty (nsymCount_eq_zero hzero), fun hbig => ?_⟩
  refine exec_build_of_overflow (fun hn => ?_) hbig
  rw [exactTotal_eq_zero hn] at hbig
  omega

/-- Settles O35: a BUILD that completes with code 0 has committed a valid tree, which is well-formed by R53 (a), and TCHK
commits on a well-formed tree. -/
theorem builtTreeIsWellFormed : Obligations.BuiltTreeIsWellFormed := by
  intro s t h hok
  obtain ⟨s1, ⟨hn, -, -, rfl⟩, rfl⟩ | ⟨s1, x, ⟨-, -, hx, -⟩, -⟩ | ⟨c, hne, rfl⟩ := exec_cases h
  · have hwf := (installTree_treeInv hn).tree rfl
    exact ⟨hwf, _, exec_of_commits ⟨hwf, rfl, rfl⟩, rfl⟩
  · cases hx
  · exact absurd hok hne

end Sys2Proof.Machine
end

section
/-! The loop of WellFormed decides the six conditions (R131). Both come to one tree in node RAM that reaches every index
below `m` once and whose leaves hold distinct symbols: `wellFormedTree_iff` for the loop, `treeConditions_iff` for paths. -/

namespace Sys2Proof.Machine

/-! ## The loop accepts only a forest (R131) -/

/-- One turn that ends in true: the index popped is new and below `m`, its word is well-formed, and the turns after it
end in true. -/
theorem wellFormedLoop_cons {node : Vector Word 511} {m turns i : Nat} {stack seen : List Nat} {syms : List Sym}
    (h : wellFormedLoop node m (turns + 1) (i :: stack) seen syms = true) :
    (i < m ∧ i ∉ seen) ∧
      ((isLeafWord (nodeEntry node i) = true ∧ leafZeros (nodeEntry node i) = true ∧ symField (nodeEntry node i) ∉ syms ∧
          wellFormedLoop node m turns stack (i :: seen) (symField (nodeEntry node i) :: syms) = true) ∨
        (isLeafWord (nodeEntry node i) = false ∧ internalZeros (nodeEntry node i) = true ∧
          wellFormedLoop node m turns
            ((leftField (nodeEntry node i)).toNat :: (rightField (nodeEntry node i)).toNat :: stack) (i :: seen) syms
            = true)) := by
  cases hl : isLeafWord (nodeEntry node i) <;>
    simpa [wellFormedLoop, hl, and_assoc] using h

/-- A loop that ends in true has walked a forest: its indices are below `m` and new, its symbols are new, and with what
was seen before the indices number `m`. -/
theorem forestAt_of_wellFormedLoop {node : Vector Word 511} {m turns : Nat} {stack seen : List Nat} {syms : List Sym}
    (h : wellFormedLoop node m turns stack seen syms = true) (hseen : seen.Nodup) (hsyms : syms.Nodup) :
    ∃ is xs, ForestAt node stack is xs ∧ (∀ i ∈ is, i < m) ∧ (is ++ seen).Nodup ∧ (xs ++ syms).Nodup ∧
      is.length + seen.length = m := by
  induction turns generalizing stack seen syms with
  | zero =>
    cases stack with
    | nil => exact ⟨[], [], .nil, by simp, hseen, hsyms, by simpa [wellFormedLoop_nil] using h⟩
    | cons i stack => simp [wellFormedLoop] at h
  | succ turns ih =>
    cases stack with
    | nil => exact ⟨[], [], .nil, by simp, hseen, hsyms, by simpa [wellFormedLoop_nil] using h⟩
    | cons i stack =>
      obtain ⟨⟨hi, hnew⟩, ⟨hleaf, hzeros, hsym, h⟩ | ⟨hfork, hzeros, h⟩⟩ := wellFormedLoop_cons h
      · obtain ⟨is, xs, hf, hm, his, hxs, hcount⟩ := ih h (hseen.cons hnew) (hsyms.cons hsym)
        refine ⟨_, _, .leaf hleaf hzeros hf, by simpa [hi] using hm, List.perm_middle.nodup_iff.mp his,
          List.perm_middle.nodup_iff.mp hxs, ?_⟩
        simp only [List.length_cons] at hcount ⊢
        omega
      · obtain ⟨is, xs, hf, hm, his, hxs, hcount⟩ := ih h (hseen.cons hnew) hsyms
        refine ⟨_, _, .fork hfork hzeros hf, by simpa [hi] using hm, List.perm_middle.nodup_iff.mp his, hxs, ?_⟩
        simp only [List.length_cons] at hcount ⊢
        omega

/-- As many distinct indices below `m` as there are is all of them. -/
theorem perm_range_of_nodup {is : List Nat} {m : Nat} (hm : ∀ i ∈ is, i < m) (his : is.Nodup) (hlen : is.length = m) :
    is.Perm (List.range m) :=
  (List.subperm_of_subset his fun i hi => List.mem_range.mpr (hm i hi)).perm_of_length_le (by simp [hlen])

/-- What WellFormed accepts, as a tree in node RAM. -/
theorem wellFormedTree_iff {node : Vector Word 511} {r m : Nat} :
    wellFormedTree node r m = true ↔
      (1 ≤ m ∧ m ≤ 511 ∧ r < m) ∧ ∃ is xs, ForestAt node [r] is xs ∧ is.Perm (List.range m) ∧ xs.Nodup := by
  constructor
  · intro h
    obtain ⟨⟨h1, h511, hr⟩, hloop⟩ :
        (1 ≤ m ∧ m ≤ 511 ∧ r < m) ∧ wellFormedLoop node m m [r] [] [] = true := by
      simpa [wellFormedTree, and_assoc, Nat.one_le_iff_ne_zero] using h
    obtain ⟨is, xs, hf, hm, his, hxs, hcount⟩ := forestAt_of_wellFormedLoop hloop .nil .nil
    exact ⟨⟨h1, h511, hr⟩, is, xs, hf, perm_range_of_nodup hm (by simpa using his) hcount, by simpa using hxs⟩
  · rintro ⟨⟨-, h511, hr⟩, is, xs, hf, his, hxs⟩
    exact wellFormedTree_of_forestAt hf his hxs hr h511

/-! ## One tree, by its root -/

/-- The tree at a root is a leaf, or the trees at its two children below the root; their indices part those below it. -/
theorem ForestAt.tree_cases {node : Vector Word 511} {i : Nat} {is : List Nat} {xs : List Sym}
    (h : ForestAt node [i] is xs) :
    (leafNode node i ∧ is = [i]) ∨
      (¬ leafNode node i ∧ ∃ (part : Bool → List Nat) (syms : Bool → List Sym), is = i :: (part false ++ part true) ∧
        ∀ b, ForestAt node [(childField b (nodeEntry node i)).toNat] (part b) (syms b)) := by
  cases h with
  | leaf hleaf _ hrest =>
    cases hrest
    exact .inl ⟨hleaf, rfl⟩
  | fork hfork _ hrest =>
    obtain ⟨left, right, xs1, xs2, rfl, -, hleft, hright⟩ := hrest.split [_] [_] rfl
    refine .inr ⟨by simp [hfork], fun b => if b then right else left, fun b => if b then xs2 else xs1, rfl, fun b => ?_⟩
    cases b
    · exact hleft
    · exact hright

/-- A path from the root stays among the tree's indices. -/
theorem ForestAt.mem_of_follow {node : Vector Word 511} {i j : Nat} {p : List Bool} {is : List Nat} {xs : List Sym}
    (h : ForestAt node [i] is xs) (hp : follow node i p = some j) : j ∈ is := by
  induction p generalizing i is xs with
  | nil =>
    obtain rfl : i = j := by simpa using hp
    exact h.subset (by simp)
  | cons b p ih =>
    obtain ⟨hl, -⟩ | ⟨hl, part, syms, rfl, hpart⟩ := h.tree_cases
    · simp [follow_cons_of_leaf b p hl] at hp
    · rw [follow_cons_of_internal b p hl] at hp
      have hj := ih (hpart b) hp
      cases b <;> simp [hj]

/-- Every index of a forest lies on a path from a root. -/
theorem ForestAt.exists_follow {node : Vector Word 511} {stack is : List Nat} {xs : List Sym}
    (h : ForestAt node stack is xs) : ∀ j ∈ is, ∃ r ∈ stack, ∃ p, follow node r p = some j := by
  induction h with
  | nil => simp
  | @leaf i stack is xs hleaf _ _ ih =>
    intro j hj
    obtain rfl | hj := List.mem_cons.mp hj
    · exact ⟨j, by simp, [], rfl⟩
    · obtain ⟨r, hr, hp⟩ := ih j hj
      exact ⟨r, by simp [hr], hp⟩
  | @fork i stack is xs hfork _ _ ih =>
    have hstep (b : Bool) (p : List Bool) := follow_cons_of_internal (node := node) (i := i) b p (by simp [hfork])
    intro j hj
    obtain rfl | hj := List.mem_cons.mp hj
    · exact ⟨j, by simp, [], rfl⟩
    · obtain ⟨r, hr, p, hp⟩ := ih j hj
      obtain rfl | rfl | hr := by simpa using hr
      · exact ⟨i, by simp, false :: p, (hstep false p).trans hp⟩
      · exact ⟨i, by simp, true :: p, (hstep true p).trans hp⟩
      · exact ⟨r, by simp [hr], p, hp⟩

/-- The two parts below a root of which no index is reached twice: neither holds the root, and they share no index. -/
theorem parts_of_nodup {i : Nat} {part : Bool → List Nat} (h : (i :: (part false ++ part true)).Nodup) (b : Bool) :
    i ∉ part b ∧ (part b).Nodup ∧ ∀ c, c ≠ b → ∀ j ∈ part b, j ∉ part c := by
  simp only [List.nodup_cons, List.nodup_append, List.mem_append, not_or] at h
  obtain ⟨⟨hi0, hi1⟩, h0, h1, hdisj⟩ := h
  cases b
  · refine ⟨hi0, h0, fun c hc j hj hj' => ?_⟩
    obtain rfl : c = true := by simpa using hc
    exact hdisj j hj j hj' rfl
  · refine ⟨hi1, h1, fun c hc j hj hj' => ?_⟩
    obtain rfl : c = false := by simpa using hc
    exact hdisj j hj' j hj rfl

/-- In a tree that reaches no index twice, one index has one path. -/
theorem ForestAt.path_unique {node : Vector Word 511} {i j : Nat} {p q : List Bool} {is : List Nat} {xs : List Sym}
    (h : ForestAt node [i] is xs) (his : is.Nodup) (hp : follow node i p = some j) (hq : follow node i q = some j) :
    p = q := by
  induction p generalizing i q is xs with
  | nil =>
    obtain rfl : i = j := by simpa using hp
    cases q with
    | nil => rfl
    | cons c q =>
      obtain ⟨hl, -⟩ | ⟨hl, part, syms, rfl, hpart⟩ := h.tree_cases
      · simp [follow_cons_of_leaf c q hl] at hq
      · rw [follow_cons_of_internal c q hl] at hq
        obtain ⟨hi, -⟩ := parts_of_nodup his c
        exact absurd ((hpart c).mem_of_follow hq) hi
  | cons b p ih =>
    obtain ⟨hl, -⟩ | ⟨hl, part, syms, rfl, hpart⟩ := h.tree_cases
    · simp [follow_cons_of_leaf b p hl] at hp
    · rw [follow_cons_of_internal b p hl] at hp
      have hj := (hpart b).mem_of_follow hp
      obtain ⟨hi, hb, hdisj⟩ := parts_of_nodup his b
      cases q with
      | nil =>
        obtain rfl : i = j := by simpa using hq
        exact absurd hj hi
      | cons c q =>
        rw [follow_cons_of_internal c q hl] at hq
        obtain rfl : c = b := by
          by_contra hc
          exact hdisj c hc j hj ((hpart c).mem_of_follow hq)
        rw [ih (hpart c) hb hp hq]

/-- Every index of a forest holds a word whose zero fields are 0 (R131). -/
theorem ForestAt.zeros {node : Vector Word 511} {stack is : List Nat} {xs : List Sym} (h : ForestAt node stack is xs) :
    ∀ i ∈ is, if isLeafWord (nodeEntry node i) then leafZeros (nodeEntry node i) = true
      else internalZeros (nodeEntry node i) = true := by
  induction h with
  | nil => simp
  | leaf hleaf hzeros _ ih => simpa [hleaf, hzeros] using ih
  | fork hfork hzeros _ ih => simpa [hfork, hzeros] using ih

/-- The symbols of a forest are those of its leaves. -/
theorem ForestAt.symbols_eq {node : Vector Word 511} {stack is : List Nat} {xs : List Sym} (h : ForestAt node stack is xs) :
    xs = (is.filter fun i => isLeafWord (nodeEntry node i)).map fun i => symField (nodeEntry node i) := by
  induction h with
  | nil => rfl
  | leaf hleaf _ _ ih => simp [hleaf, ← ih]
  | fork hfork _ _ ih => simp [hfork, ← ih]

/-! ## From the conditions to a tree -/

/-- A path is shorter than `m`: its prefixes reach distinct indices below `m`. -/
theorem TreeConditions.length_lt {node : Vector Word 511} {r m i : Nat} {p : List Bool} (h : TreeConditions node r m)
    (hp : follow node r p = some i) : p.length < m := by
  have hprefix (k : Nat) : ∃ j, follow node r (p.take k) = some j := by
    rw [← List.take_append_drop k p, follow_append, Option.bind_eq_some_iff] at hp
    obtain ⟨j, hj, -⟩ := hp
    exact ⟨j, hj⟩
  choose idx hidx using hprefix
  have hcard := Finset.card_le_card_of_injOn idx (s := Finset.range (p.length + 1)) (t := Finset.range m)
    (fun k _ => Finset.mem_coe.mpr (Finset.mem_range.mpr (h.inside _ _ (hidx k))))
    (fun k hk l hl heq => by
      have htake := h.once _ _ _ (hidx k) (heq ▸ hidx l)
      simp only [Finset.coe_range, Set.mem_Iio] at hk hl
      simpa [Nat.min_eq_left, Nat.le_of_lt_succ hk, Nat.le_of_lt_succ hl] using congrArg List.length htake)
  simpa using hcard

/-- Where each index has one path from `r`, so it has from every index reached. -/
theorem TreeConditions.once_below {node : Vector Word 511} {r m i j : Nat} {p q q' : List Bool}
    (h : TreeConditions node r m) (hp : follow node r p = some i) (hq : follow node i q = some j)
    (hq' : follow node i q' = some j) : q = q' := by
  have := h.once (p ++ q) (p ++ q') j (by simp [follow_append, hp, hq]) (by simp [follow_append, hp, hq'])
  simpa using this

/-- Every index reached is the root of a tree that reaches no index twice. -/
theorem TreeConditions.exists_tree {node : Vector Word 511} {r m i : Nat} {p : List Bool} (h : TreeConditions node r m)
    (hp : follow node r p = some i) : ∃ is xs, ForestAt node [i] is xs ∧ is.Nodup := by
  have hzeros := h.zeros p i hp
  by_cases hl : leafNode node i
  · exact ⟨[i], _, .leaf hl (by simpa [hl] using hzeros) .nil, by simp⟩
  · have hstep (b : Bool) (q : List Bool) := follow_cons_of_internal b q hl
    have hchild (b : Bool) : follow node r (p ++ [b]) = some (childField b (nodeEntry node i)).toNat := by
      simp [follow_append, hp, hstep]
    have hlt := h.length_lt hp
    have htree (b : Bool) := h.exists_tree (hchild b)
    choose part syms hpart hnodup using htree
    have hpath (b : Bool) (j : Nat) (hj : j ∈ part b) : ∃ q, follow node i (b :: q) = some j := by
      simpa [hstep] using (hpart b).exists_follow j hj
    have hroot (b : Bool) : i ∉ part b := fun hi => by
      obtain ⟨q, hq⟩ := hpath b i hi
      simpa using h.once_below hp hq (follow_nil node i)
    have hdisj : ∀ j ∈ part false, ∀ k ∈ part true, j ≠ k := by
      rintro j hj k hk rfl
      obtain ⟨q, hq⟩ := hpath false j hj
      obtain ⟨q', hq'⟩ := hpath true j hk
      simpa using h.once_below hp hq hq'
    refine ⟨i :: (part false ++ part true), _, .fork (by simpa using hl) (by simpa [hl] using hzeros)
      ((hpart false).append (hpart true)), ?_⟩
    rw [List.nodup_cons, List.mem_append, not_or, List.nodup_append]
    exact ⟨⟨hroot false, hroot true⟩, hnodup false, hnodup true, hdisj⟩
  termination_by m - p.length
  decreasing_by all_goals simp; omega

/-- The six conditions, as a tree in node RAM. -/
theorem treeConditions_iff {node : Vector Word 511} {r m : Nat} :
    TreeConditions node r m ↔
      (1 ≤ m ∧ m ≤ 511 ∧ r < m) ∧ ∃ is xs, ForestAt node [r] is xs ∧ is.Perm (List.range m) ∧ xs.Nodup := by
  constructor
  · intro h
    obtain ⟨is, xs, hf, his⟩ := h.exists_tree (follow_nil node r)
    have hpath (j : Nat) (hj : j ∈ is) : ∃ p, follow node r p = some j := by simpa using hf.exists_follow j hj
    refine ⟨h.bounds, is, xs, hf, ?_, ?_⟩
    · refine (List.perm_ext_iff_of_nodup his List.nodup_range).mpr fun j => ?_
      rw [List.mem_range]
      constructor
      · intro hj
        obtain ⟨p, hp⟩ := hpath j hj
        exact h.inside p j hp
      · intro hj
        obtain ⟨p, hp⟩ := h.all j hj
        exact hf.mem_of_follow hp
    · rw [hf.symbols_eq]
      refine List.Nodup.map_on (fun j hj k hk heq => ?_) (his.filter _)
      rw [List.mem_filter] at hj hk
      obtain ⟨p, hp⟩ := hpath j hj.1
      obtain ⟨q, hq⟩ := hpath k hk.1
      exact h.distinct p q j k hp hq hj.2 hk.2 heq
  · rintro ⟨hbounds, is, xs, hf, his, hxs⟩
    have hmem {p : List Bool} {i : Nat} (hp : follow node r p = some i) := hf.mem_of_follow hp
    refine ⟨hbounds, fun p i hp => List.mem_range.mp (his.subset (hmem hp)),
      fun p q i hp hq => hf.path_unique (his.nodup_iff.mpr List.nodup_range) hp hq, fun i hi => ?_,
      fun p i hp => hf.zeros i (hmem hp), fun p q i j hp hq hi hj heq => ?_⟩
    · simpa using hf.exists_follow i (his.symm.subset (List.mem_range.mpr hi))
    · rw [hf.symbols_eq] at hxs
      exact List.inj_on_of_nodup_map hxs (List.mem_filter.mpr ⟨hmem hp, hi⟩) (List.mem_filter.mpr ⟨hmem hq, hj⟩) heq

/-- Settles O39: both sides say that the tree at `r` reaches each index below `m` once and no two leaves share a symbol. -/
theorem wellFormedLoopDecidesTheConditions : Obligations.WellFormedLoopDecidesTheConditions :=
  fun _ _ _ => wellFormedTree_iff.trans treeConditions_iff.symm

end Sys2Proof.Machine
end

section
/-! BUILD is a function of FREQ alone (R133): two runs on equal counters keep equal queues, and node RAM that agrees below
the next free index. -/

namespace Sys2Proof.Machine

/-! ## Node RAM up to an index -/

/-- Two node RAMs hold the same words below index `k`. -/
def AgreeBelow (k : Nat) (v v' : Vector Word 511) : Prop := ∀ j, j < k → nodeEntry v j = nodeEntry v' j

theorem AgreeBelow.mono {k l : Nat} {v v' : Vector Word 511} (h : AgreeBelow l v v') (hkl : k ≤ l) : AgreeBelow k v v' :=
  fun j hj => h j (hj.trans_le hkl)

/-- A write at index `k` leaves the words below it. -/
theorem agreeBelow_setNodeEntry (v : Vector Word 511) (k : Nat) (w : Word) : AgreeBelow k v (setNodeEntry v k w) :=
  fun _ hj => (nodeEntry_setNodeEntry_other v w hj.ne').symm

/-- The same write at the next index makes two node RAMs agree one index further. An index node RAM does not have reads
the same in both. -/
theorem AgreeBelow.setNodeEntry {k : Nat} {v v' : Vector Word 511} (h : AgreeBelow k v v') (w : Word) :
    AgreeBelow (k + 1) (Machine.setNodeEntry v k w) (Machine.setNodeEntry v' k w) := by
  intro j hj
  obtain hjk | rfl := Nat.lt_succ_iff_lt_or_eq.mp hj
  · rw [nodeEntry_setNodeEntry_other v w hjk.ne', nodeEntry_setNodeEntry_other v' w hjk.ne', h j hjk]
  · by_cases hlt : j < 511
    · rw [nodeEntry_setNodeEntry_same v w hlt, nodeEntry_setNodeEntry_same v' w hlt]
    · simp [nodeEntry, hlt]

/-! ## Two runs of BUILD's loops -/

/-- Two builders that differ at most in the words of node RAM not yet written. -/
structure SameBuild (b b' : Builder) : Prop where
  queue : b.queue = b'.queue
  next : b.next = b'.next
  node : AgreeBelow b.next b.node b'.node
  nw : AgreeBelow b.next b.nw b'.nw

theorem SameBuild.addNode {b b' : Builder} (h : SameBuild b b') (word : Word) (weight : Nat) :
    SameBuild (Machine.addNode word weight b) (Machine.addNode word weight b') := by
  obtain ⟨hqueue, hnext, hnode, hnw⟩ := h
  refine ⟨by simp [hqueue, hnext], by simp [hnext], ?_, ?_⟩
  · simpa [hnext] using (hnext ▸ hnode).setNodeEntry word
  · simpa [hnext] using (hnext ▸ hnw).setNodeEntry (BitVec.ofNat 32 weight)

theorem SameBuild.addLeaves {b b' : Builder} (freq : Vector Word 256) (syms : List Sym) (h : SameBuild b b') :
    SameBuild (syms.foldl (addLeaf freq) b) (syms.foldl (addLeaf freq) b') := by
  induction syms generalizing b b' with
  | nil => exact h
  | cons x syms ih => exact ih (h.addNode _ _)

theorem SameBuild.mergeTwo {b b' : Builder} (h : SameBuild b b') (first second : QueueKey) (rest : List QueueKey) :
    SameBuild (Machine.mergeTwo first second rest b) (Machine.mergeTwo first second rest b') :=
  SameBuild.addNode (b := { b with queue := rest }) (b' := { b' with queue := rest }) ⟨rfl, h.next, h.node, h.nw⟩ _ _

theorem SameBuild.mergeAll {b b' : Builder} (turns : Nat) (h : SameBuild b b') :
    SameBuild (Machine.mergeAll turns b) (Machine.mergeAll turns b') := by
  induction turns generalizing b b' with
  | zero => exact h
  | succ turns ih =>
    unfold Machine.mergeAll
    rw [← h.queue]
    split
    · exact h
    · split
      · exact h
      · exact ih (h.mergeTwo _ _ _)

/-- The loops of BUILD on equal counters, whatever node RAM held. -/
theorem sameBuild_buildTree {s s' : State} (h : s.freq = s'.freq) : SameBuild (buildTree s) (buildTree s') := by
  have hstart : SameBuild { node := s.node, nw := s.nw, queue := [], next := 0 }
      { node := s'.node, nw := s'.nw, queue := [], next := 0 } :=
    ⟨rfl, rfl, fun j hj => absurd hj j.not_lt_zero, fun j hj => absurd hj j.not_lt_zero⟩
  rw [buildTree, buildTree, ← h]
  exact (hstart.addLeaves s.freq _).mergeAll _

/-- Settles O36: the counters choose the answer, and the trees of two successes agree below NNODES. -/
theorem buildDependsOnFreqAlone : Obligations.BuildDependsOnFreqAlone := by
  intro s s' t t' hfreq ht ht'
  by_cases hn : nsymCount s.freq = 0
  · rw [exec_build_of_empty hn] at ht
    rw [exec_build_of_empty (hfreq ▸ hn)] at ht'
    cases ht
    cases ht'
    simp
  obtain hbig | hfits := lt_or_ge 0xFFFFFFFF (exactTotal s.freq)
  · rw [exec_build_of_overflow hn hbig] at ht
    rw [exec_build_of_overflow (hfreq ▸ hn) (hfreq ▸ hbig)] at ht'
    cases ht
    cases ht'
    simp
  · rw [exec_build_of_fits hn hfits] at ht
    rw [exec_build_of_fits (hfreq ▸ hn) (hfreq ▸ hfits)] at ht'
    cases ht
    cases ht'
    obtain ⟨-, hnext, hnode, hnw⟩ := sameBuild_buildTree hfreq
    refine ⟨rfl, fun _ => ⟨by simp [hnext], by simp [hnext], fun k hk => ?_⟩⟩
    have hlt : k < (buildTree s).next := hk.trans_le (by simpa using Nat.mod_le _ _)
    exact ⟨hnode k hlt, hnw k hlt⟩

end Sys2Proof.Machine
end

section
/-! BUILD is Huffman's algorithm with the keys, order and node numbers of R122 to R125. `Merging` says what every step of
its loops keeps; the merge of the two least keys is then what each internal node records. -/

namespace Sys2Proof.Machine

/-! ## What is said of node `k` looks at the nodes up to `k` -/

theorem AgreeBelow.inQueue_iff {k n c : Nat} {node node' : Vector Word 511} (h : AgreeBelow k node node') :
    InQueue node n k c ↔ InQueue node' n k c := by
  refine and_congr_right fun _ => forall_congr' fun j => imp_congr_right fun _ => forall_congr' fun hj => ?_
  rw [h j hj]

theorem AgreeBelow.keyLess_iff {k i j : Nat} {nw nw' : Vector Word 511} (h : AgreeBelow k nw nw') (hi : i < k)
    (hj : j < k) : KeyLess nw i j ↔ KeyLess nw' i j := by
  rw [KeyLess, KeyLess, h i hi, h j hj]

/-- Node `k` is the merge of the two least keys in the queue when it is made, in a tree with `n` leaves (R122, R124). -/
def MergedAt (node nw : Vector Word 511) (n k : Nat) : Prop :=
  ∃ a b, nodeEntry node k = internalWord a b ∧ InQueue node n k a ∧ InQueue node n k b ∧ KeyLess nw a b ∧
    (∀ c, InQueue node n k c → c ≠ a → c ≠ b → KeyLess nw b c) ∧
    (nodeEntry nw k).toNat = (nodeEntry nw a).toNat + (nodeEntry nw b).toNat

theorem MergedAt.congr {node node' nw nw' : Vector Word 511} {n k : Nat} (h : MergedAt node nw n k)
    (hnode : AgreeBelow (k + 1) node node') (hnw : AgreeBelow (k + 1) nw nw') : MergedAt node' nw' n k := by
  obtain ⟨a, b, hword, ha, hb, hab, hleast, hsum⟩ := h
  have hqueue (c : Nat) := (hnode.mono k.le_succ).inQueue_iff (n := n) (c := c)
  have hkey {i j : Nat} (hi : InQueue node n k i) (hj : InQueue node n k j) :=
    (hnw.mono k.le_succ).keyLess_iff hi.1 hj.1
  refine ⟨a, b, hnode k k.lt_succ_self ▸ hword, (hqueue a).mp ha, (hqueue b).mp hb, (hkey ha hb).mp hab,
    fun c hc hca hcb => ?_, ?_⟩
  · have hc := (hqueue c).mpr hc
    exact (hkey hb hc).mp (hleast c hc hca hcb)
  · rwa [← hnw k k.lt_succ_self, ← hnw a (ha.1.trans k.lt_succ_self), ← hnw b (hb.1.trans k.lt_succ_self)]

/-- The children of a merge were made before it. -/
theorem MergedAt.children_lt {node nw : Vector Word 511} {n k : Nat} (h : MergedAt node nw n k) (hk : k ≤ 511) :
    (leftField (nodeEntry node k)).toNat < k ∧ (rightField (nodeEntry node k)).toNat < k := by
  obtain ⟨a, b, hword, ⟨ha, -⟩, ⟨hb, -⟩, -⟩ := h
  obtain ⟨-, hleft, hright, -⟩ := internalWord_fields (a := a) (b := b) (by omega) (by omega)
  rw [hword, hleft, hright]
  exact ⟨ha, hb⟩

/-! ## The queue by its indices (R122, R123) -/

/-- Among the leaves every index made is in the queue. -/
theorem inQueue_of_le {node : Vector Word 511} {n k c : Nat} (h : k ≤ n) : InQueue node n k c ↔ c < k :=
  ⟨fun hc => hc.1, fun hc => ⟨hc, fun j hn hk => by omega⟩⟩

/-- A merge takes its children out of the queue and puts itself in. -/
theorem inQueue_succ_of_merge {node : Vector Word 511} {n k a b c : Nat} (hn : n ≤ k)
    (hleft : (leftField (nodeEntry node k)).toNat = a) (hright : (rightField (nodeEntry node k)).toNat = b)
    (hlt : ∀ j, n ≤ j → j ≤ k → (leftField (nodeEntry node j)).toNat < j ∧ (rightField (nodeEntry node j)).toNat < j) :
    InQueue node n (k + 1) c ↔ c = k ∨ (InQueue node n k c ∧ c ≠ a ∧ c ≠ b) := by
  constructor
  · rintro ⟨hc, hall⟩
    obtain hck | rfl := Nat.lt_succ_iff_lt_or_eq.mp hc
    · obtain ⟨hca, hcb⟩ := hall k hn k.lt_succ_self
      exact .inr ⟨⟨hck, fun j hj hjk => hall j hj (hjk.trans k.lt_succ_self)⟩, hleft ▸ hca.symm, hright ▸ hcb.symm⟩
    · exact .inl rfl
  · rintro (rfl | ⟨⟨hck, hall⟩, hca, hcb⟩)
    · refine ⟨c.lt_succ_self, fun j hj hjc => ?_⟩
      have := hlt j hj (Nat.le_of_lt_succ hjc)
      omega
    · refine ⟨hck.trans k.lt_succ_self, fun j hj hjk => ?_⟩
      obtain hjk | rfl := Nat.lt_succ_iff_lt_or_eq.mp hjk
      · exact hall j hj hjk
      · exact ⟨hleft ▸ hca.symm, hright ▸ hcb.symm⟩

/-- A key that does not come before another of another index comes after it. -/
theorem keyLess_of_not_keyBefore {nw : Vector Word 511} {q l : QueueKey} (h : keyBefore l q = false)
    (hne : q.index ≠ l.index) (hq : (nodeEntry nw q.index).toNat = q.weight)
    (hl : (nodeEntry nw l.index).toNat = l.weight) : KeyLess nw q.index l.index := by
  rw [← Bool.not_eq_true, keyBefore_iff] at h
  rw [KeyLess, hq, hl]
  omega

/-- `first` and `second` are the two least keys of a queue, in this order, and `rest` the others. -/
structure TwoLeast (queue : List QueueKey) (first second : QueueKey) (rest : List QueueKey) : Prop where
  perm : queue.Perm (first :: second :: rest)
  first_least : ∀ l ∈ second :: rest, keyBefore l first = false
  second_least : ∀ l ∈ rest, keyBefore l second = false

/-- What a turn of the merge loop takes out of the queue (R122). -/
theorem twoLeast_of_takeLeast {queue q1 rest : List QueueKey} {first second : QueueKey}
    (h1 : takeLeast queue = some (first, q1)) (h2 : takeLeast q1 = some (second, rest)) :
    TwoLeast queue first second rest := by
  obtain ⟨hperm1, hfirst⟩ := takeLeast_spec h1
  obtain ⟨hperm2, hsecond⟩ := takeLeast_spec h2
  exact ⟨hperm1.trans (hperm2.cons first), fun l hl => hfirst l (hperm2.symm.subset hl), hsecond⟩

theorem TwoLeast.mem {queue rest : List QueueKey} {first second q : QueueKey} (h : TwoLeast queue first second rest)
    (hq : q ∈ first :: second :: rest) : q ∈ queue := h.perm.symm.subset hq

theorem TwoLeast.sum_weight {queue rest : List QueueKey} {first second : QueueKey}
    (h : TwoLeast queue first second rest) : (queue.map QueueKey.weight).sum =
      first.weight + second.weight + (rest.map QueueKey.weight).sum := by
  simpa [Nat.add_assoc] using (h.perm.map QueueKey.weight).sum_eq

/-! ## What every step of BUILD keeps -/

/-- BUILD from state `s`, on the way to a tree with `n` leaves: the nodes made so far are the leaves in order and then
merges, the queue's keys are those of the nodes in it, and the rest of node RAM is that of `s`. -/
structure Merging (s : State) (n : Nat) (b : Builder) : Prop where
  leaves : ∀ k x, k < b.next → (presentSyms s.freq)[k]? = some x →
    nodeEntry b.node k = leafWord x ∧ nodeEntry b.nw k = symEntry s.freq x
  merged : ∀ k, n ≤ k → k < b.next → MergedAt b.node b.nw n k
  weights : ∀ q ∈ b.queue, (nodeEntry b.nw q.index).toNat = q.weight
  queue : ∀ c, c ∈ b.queue.map QueueKey.index ↔ InQueue b.node n b.next c
  nodup : (b.queue.map QueueKey.index).Nodup
  rest : ∀ k, b.next ≤ k → nodeEntry b.node k = nodeEntry s.node k ∧ nodeEntry b.nw k = nodeEntry s.nw k

theorem merging_start (s : State) (n : Nat) : Merging s n { node := s.node, nw := s.nw, queue := [], next := 0 } where
  leaves := by simp
  merged := by simp
  weights := by simp
  queue := by simp [InQueue]
  nodup := by simp
  rest := by simp

theorem Merging.index_lt {s : State} {n : Nat} {b : Builder} (h : Merging s n b) {q : QueueKey} (hq : q ∈ b.queue) :
    q.index < b.next :=
  ((h.queue q.index).mp (List.mem_map_of_mem hq)).1

/-- One node more: what the two kinds of step share. What is left is to say what the node is and what the queue holds. -/
theorem Merging.addNode {s : State} {n weight : Nat} {b : Builder} {word : Word} {queue : List QueueKey}
    (h : Merging s n b) (hlt : b.next < 511) (hweight : weight < 2 ^ 32) (hsub : queue ⊆ b.queue)
    (hnodup : (queue.map QueueKey.index).Nodup)
    (hleaf : ∀ x, (presentSyms s.freq)[b.next]? = some x → word = leafWord x ∧ weight = (symEntry s.freq x).toNat)
    (hmerged : n ≤ b.next → MergedAt (setNodeEntry b.node b.next word)
      (setNodeEntry b.nw b.next (BitVec.ofNat 32 weight)) n b.next)
    (hqueue : ∀ c, c = b.next ∨ c ∈ queue.map QueueKey.index ↔
      InQueue (setNodeEntry b.node b.next word) n (b.next + 1) c) :
    Merging s n (Machine.addNode word weight { b with queue := queue }) := by
  have hnode := agreeBelow_setNodeEntry b.node b.next word
  have hnw := agreeBelow_setNodeEntry b.nw b.next (BitVec.ofNat 32 weight)
  have hnode_new := nodeEntry_setNodeEntry_same b.node word hlt
  have hnw_new := nodeEntry_setNodeEntry_same b.nw (BitVec.ofNat 32 weight) hlt
  refine ⟨fun k x hk hx => ?_, fun k hn hk => ?_, fun q hq => ?_, fun c => ?_, ?_, fun k hk => ?_⟩
  · obtain hk | rfl := Nat.lt_succ_iff_lt_or_eq.mp hk
    · simpa [← hnode k hk, ← hnw k hk] using h.leaves k x hk hx
    · obtain ⟨rfl, rfl⟩ := hleaf x hx
      exact ⟨hnode_new, by simpa using hnw_new⟩
  · obtain hk | rfl := Nat.lt_succ_iff_lt_or_eq.mp hk
    · exact (h.merged k hn hk).congr (hnode.mono hk) (hnw.mono hk)
    · exact hmerged hn
  · obtain rfl | hq := List.mem_cons.mp hq
    · simpa [hnw_new] using hweight
    · simpa [← hnw _ (h.index_lt (hsub hq))] using h.weights q (hsub hq)
  · simpa using hqueue c
  · simp only [addNode_queue, List.map_cons, List.nodup_cons]
    refine ⟨fun hmem => ?_, hnodup⟩
    obtain ⟨q, hq, hindex⟩ := List.mem_map.mp hmem
    exact (h.index_lt (hsub hq)).ne hindex
  · have hk : b.next + 1 ≤ k := hk
    simpa [nodeEntry_setNodeEntry_other _ _ (show b.next ≠ k by omega)] using h.rest k (by omega)

theorem Merging.addLeaf {s : State} {n : Nat} {b : Builder} {x : Sym} (h : Merging s n b) (hnext : b.next < n)
    (hn : n ≤ 511) (hx : (presentSyms s.freq)[b.next]? = some x) : Merging s n (Machine.addLeaf s.freq b x) := by
  refine h.addNode (queue := b.queue) (by omega) (BitVec.isLt _) (List.Subset.refl _) h.nodup (fun y hy => ?_)
    (fun hle => by omega) (fun c => ?_)
  · obtain rfl : x = y := by simpa [hx] using hy
    exact ⟨rfl, rfl⟩
  · rw [h.queue, inQueue_of_le hnext.le, inQueue_of_le hnext]
    omega

/-- The leaves of the symbols present, those of `pre` made already. -/
theorem Merging.addLeaves {s : State} {b : Builder} (pre syms : List Sym)
    (h : Merging s (presentSyms s.freq).length b) (hsyms : presentSyms s.freq = pre ++ syms)
    (hpre : b.next = pre.length) :
    Merging s (presentSyms s.freq).length (syms.foldl (Machine.addLeaf s.freq) b) := by
  induction syms generalizing pre b with
  | nil => exact h
  | cons x syms ih =>
    have hlen : (presentSyms s.freq).length = pre.length + syms.length + 1 := by simp [hsyms, Nat.add_assoc]
    have hle : (presentSyms s.freq).length ≤ 256 := nsymCount_le s.freq
    refine ih (pre ++ [x]) (h.addLeaf (by omega) (by omega) ?_) (by simpa using hsyms) ?_
    · simp [hsyms, hpre]
    · simp [Machine.addLeaf, hpre]

theorem Merging.inQueue_iff {s : State} {n c : Nat} {b : Builder} {first second : QueueKey} {rest : List QueueKey}
    (h : Merging s n b) (hq : TwoLeast b.queue first second rest) :
    InQueue b.node n b.next c ↔ c = first.index ∨ c = second.index ∨ c ∈ rest.map QueueKey.index := by
  rw [← h.queue, (hq.perm.map QueueKey.index).mem_iff]
  simp

theorem Merging.indices_nodup {s : State} {n : Nat} {b : Builder} {first second : QueueKey} {rest : List QueueKey}
    (h : Merging s n b) (hq : TwoLeast b.queue first second rest) :
    (first.index ≠ second.index ∧ first.index ∉ rest.map QueueKey.index) ∧ second.index ∉ rest.map QueueKey.index ∧
      (rest.map QueueKey.index).Nodup := by
  simpa only [List.map_cons, List.nodup_cons, List.mem_cons, not_or] using
    (hq.perm.map QueueKey.index).nodup_iff.mp h.nodup

/-- The node a merge of the two least keys makes (R122, R124). -/
theorem Merging.mergedAt_next {s : State} {n : Nat} {b : Builder} {first second : QueueKey} {rest : List QueueKey}
    (h : Merging s n b) (hq : TwoLeast b.queue first second rest) (hlt : b.next < 511)
    (hweight : first.weight + second.weight < 2 ^ 32) :
    MergedAt (Machine.mergeTwo first second rest b).node (Machine.mergeTwo first second rest b).nw n b.next := by
  have hnode : AgreeBelow b.next b.node (Machine.mergeTwo first second rest b).node := agreeBelow_setNodeEntry _ _ _
  have hnw : AgreeBelow b.next b.nw (Machine.mergeTwo first second rest b).nw := agreeBelow_setNodeEntry _ _ _
  obtain ⟨⟨hne, -⟩, -⟩ := h.indices_nodup hq
  have hmem1 := hq.mem (q := first) (by simp)
  have hmem2 := hq.mem (q := second) (by simp)
  have hw1 := h.weights first hmem1
  have hw2 := h.weights second hmem2
  refine ⟨first.index, second.index, nodeEntry_setNodeEntry_same _ _ hlt, ?_, ?_, ?_, fun c hc hc1 hc2 => ?_, ?_⟩
  · exact hnode.inQueue_iff.mp ((h.inQueue_iff hq).mpr (.inl rfl))
  · exact hnode.inQueue_iff.mp ((h.inQueue_iff hq).mpr (.inr (.inl rfl)))
  · rw [← hnw.keyLess_iff (h.index_lt hmem1) (h.index_lt hmem2)]
    exact keyLess_of_not_keyBefore (hq.first_least second (by simp)) hne hw1 hw2
  · rw [← hnode.inQueue_iff, h.inQueue_iff hq] at hc
    obtain ⟨l, hl, rfl⟩ := List.mem_map.mp ((hc.resolve_left hc1).resolve_left hc2)
    have hmem := hq.mem (q := l) (by simp [hl])
    rw [← hnw.keyLess_iff (h.index_lt hmem2) (h.index_lt hmem)]
    exact keyLess_of_not_keyBefore (hq.second_least l hl) hc2.symm hw2 (h.weights l hmem)
  · have hnew : nodeEntry (Machine.mergeTwo first second rest b).nw b.next =
        BitVec.ofNat 32 (first.weight + second.weight) := nodeEntry_setNodeEntry_same _ _ hlt
    rw [hnew, ← hnw _ (h.index_lt hmem1), ← hnw _ (h.index_lt hmem2), hw1, hw2, BitVec.toNat_ofNat,
      Nat.mod_eq_of_lt hweight]

/-- The queue after a merge (R122). -/
theorem Merging.inQueue_mergeTwo {s : State} {n c : Nat} {b : Builder} {first second : QueueKey} {rest : List QueueKey}
    (h : Merging s n b) (hq : TwoLeast b.queue first second rest) (hn : n ≤ b.next) (hlt : b.next < 511)
    (hnew : MergedAt (Machine.mergeTwo first second rest b).node (Machine.mergeTwo first second rest b).nw n b.next) :
    c = b.next ∨ c ∈ rest.map QueueKey.index ↔
      InQueue (Machine.mergeTwo first second rest b).node n (b.next + 1) c := by
  have hlt1 := h.index_lt (hq.mem (q := first) (by simp))
  have hlt2 := h.index_lt (hq.mem (q := second) (by simp))
  have hnode : AgreeBelow b.next b.node (Machine.mergeTwo first second rest b).node := agreeBelow_setNodeEntry _ _ _
  have hword : nodeEntry (Machine.mergeTwo first second rest b).node b.next = internalWord first.index second.index :=
    nodeEntry_setNodeEntry_same _ _ hlt
  obtain ⟨-, hleft, hright, -⟩ := internalWord_fields (a := first.index) (b := second.index) (by omega) (by omega)
  obtain ⟨⟨-, hnot1⟩, hnot2, -⟩ := h.indices_nodup hq
  rw [inQueue_succ_of_merge hn (by rw [hword, hleft]) (by rw [hword, hright]) fun j hj hjk => ?_,
    ← hnode.inQueue_iff, h.inQueue_iff hq]
  · constructor
    · rintro (hc | hc)
      · exact .inl hc
      · exact .inr ⟨.inr (.inr hc), fun he => hnot1 (he ▸ hc), fun he => hnot2 (he ▸ hc)⟩
    · tauto
  · obtain hjk | rfl := Nat.lt_or_eq_of_le hjk
    · rw [← hnode j hjk]
      exact (h.merged j hj hjk).children_lt (by omega)
    · exact hnew.children_lt hlt.le

/-- A merge of the two least keys (R122). -/
theorem Merging.mergeTwo {s : State} {n : Nat} {b : Builder} {first second : QueueKey} {rest : List QueueKey}
    (h : Merging s n b) (hq : TwoLeast b.queue first second rest) (hn : (presentSyms s.freq).length = n)
    (hnext : n ≤ b.next) (hlt : b.next < 511) (hweight : first.weight + second.weight < 2 ^ 32) :
    Merging s n (Machine.mergeTwo first second rest b) := by
  have hnew := h.mergedAt_next hq hlt hweight
  obtain ⟨-, -, hnodup⟩ := h.indices_nodup hq
  refine h.addNode hlt hweight (fun q hr => hq.mem (by simp [hr])) hnodup (fun x hx => ?_) (fun _ => hnew)
    (fun c => h.inQueue_mergeTwo hq hnext hlt hnew)
  simp [List.getElem?_eq_none (hn.trans_le hnext)] at hx

/-! ## The weights of the queue -/

theorem sum_weight_addLeaves (freq : Vector Word 256) (syms : List Sym) (b : Builder) :
    ((syms.foldl (addLeaf freq) b).queue.map QueueKey.weight).sum =
      (b.queue.map QueueKey.weight).sum + (syms.map fun x => (symEntry freq x).toNat).sum := by
  induction syms generalizing b with
  | nil => rfl
  | cons x syms ih =>
    simp only [List.foldl_cons, ih, addLeaf, addNode_queue, List.map_cons, List.sum_cons]
    omega

@[simp] theorem next_addLeaves (freq : Vector Word 256) (syms : List Sym) (b : Builder) :
    (syms.foldl (addLeaf freq) b).next = b.next + syms.length := by
  induction syms generalizing b with
  | nil => rfl
  | cons x syms ih =>
    simp only [List.foldl_cons, ih, addLeaf, addNode_next, List.length_cons]
    omega

/-! ## The loops of BUILD -/

/-- What each merge of the two least keys keeps, the merge loop keeps. -/
theorem mergeAll_keeps {P : Builder → Prop}
    (hstep : ∀ b first second rest, TwoLeast b.queue first second rest → P b → P (mergeTwo first second rest b))
    (turns : Nat) {b : Builder} (h : P b) : P (mergeAll turns b) := by
  induction turns generalizing b with
  | zero => exact h
  | succ turns ih =>
    unfold mergeAll
    split
    · exact h
    · next first q1 h1 =>
      split
      · exact h
      · next second q2 h2 => exact ih (hstep b first second q2 (twoLeast_of_takeLeast h1 h2) h)

/-- A forest that has used an index has a root. -/
theorem Building.queue_ne_nil {xs : List Sym} {total : Nat} {b : Builder} (h : Building xs total b) (htotal : total ≠ 0) :
    b.queue ≠ [] := by
  intro hb
  obtain ⟨is, ys, hf, his, -⟩ := h.forest
  have hcount := h.count
  rw [hb] at hf hcount
  cases hf
  simp at his hcount
  omega

/-- What the merge loop keeps on a table that BUILD accepts. -/
structure MergeLoop (s : State) (b : Builder) : Prop where
  merging : Merging s (nsymCount s.freq) b
  building : Building (presentSyms s.freq).reverse (2 * nsymCount s.freq) b
  started : nsymCount s.freq ≤ b.next
  total : (b.queue.map QueueKey.weight).sum = exactTotal s.freq

/-- The merge loop starts with the leaves of the symbols present. -/
theorem mergeLoop_seedLeaves (s : State) :
    MergeLoop s (seedLeaves s.freq { node := s.node, nw := s.nw, queue := [], next := 0 }) where
  merging := (merging_start s _).addLeaves [] (presentSyms s.freq) (by simp) (by simp)
  building := by
    have hn : (presentSyms s.freq).length ≤ 256 := nsymCount_le s.freq
    simpa [seedLeaves, nsymCount] using
      (building_start s.node s.nw).addLeaves s.freq (presentSyms s.freq) (by simp only; omega)
  started := by simp [seedLeaves, nsymCount]
  total := by
    rw [seedLeaves, sum_weight_addLeaves, sum_presentSyms]
    simp

theorem MergeLoop.mergeTwo {s : State} {b : Builder} {first second : QueueKey} {rest : List QueueKey}
    (h : MergeLoop s b) (hfits : exactTotal s.freq ≤ 0xFFFFFFFF) (hq : TwoLeast b.queue first second rest) :
    MergeLoop s (Machine.mergeTwo first second rest b) := by
  obtain ⟨hmerging, hbuilding, hstarted, htotal⟩ := h
  have hsum := hq.sum_weight
  have hcount := hbuilding.count
  have hlen : b.queue.length = rest.length + 2 := by simpa using hq.perm.length_eq
  have hn := nsymCount_le s.freq
  refine ⟨hmerging.mergeTwo hq rfl hstarted (by omega) (by omega), hbuilding.mergeTwo hq.perm (by omega), ?_, ?_⟩
  · simp only [Machine.mergeTwo, addNode_next]
    omega
  · simp only [Machine.mergeTwo, addNode_queue, List.map_cons, List.sum_cons]
    omega

/-- The loops of BUILD end with `n` leaves and `n - 1` merges (R125). -/
theorem buildTree_merging {s : State} (hn : nsymCount s.freq ≠ 0) (hfits : exactTotal s.freq ≤ 0xFFFFFFFF) :
    Merging s (nsymCount s.freq) (buildTree s) ∧ (buildTree s).next = 2 * nsymCount s.freq - 1 := by
  have hseed := mergeLoop_seedLeaves s
  have hloop : MergeLoop s (buildTree s) :=
    mergeAll_keeps (fun _ _ _ _ hq h => h.mergeTwo hfits hq) (nsymCount s.freq) hseed
  have hle := nsymCount_le s.freq
  have hone : (buildTree s).queue.length ≤ 1 :=
    (hseed.building.mergeAll (by omega) (by simp [seedLeaves, nsymCount])).2
  have hpos := List.length_pos_iff.mpr (hloop.building.queue_ne_nil (by omega))
  have hcount := hloop.building.count
  exact ⟨hloop.merging, by omega⟩

/-! ## The statement -/

/-- The leaf of a present symbol, in the words of R120. -/
theorem Merging.leaf_of_leafSymbols {s : State} {n k : Nat} {b : Builder} {x : Fin 256} (h : Merging s n b)
    (hk : k < b.next) (hx : (leafSymbols s.freq)[k]? = some x) :
    nodeEntry b.node k = 0x80000000#32 ||| BitVec.ofNat 32 x.val ∧ nodeEntry b.nw k = s.freq[x.val] := by
  have hsym : (presentSyms s.freq)[k]? = some (BitVec.ofNat 8 x.val) := by
    simp [presentSyms_eq_map_leafSymbols, hx]
  obtain ⟨hnode, hnw⟩ := h.leaves k _ hk hsym
  have hwide : (BitVec.ofNat 8 x.val).setWidth 32 = BitVec.ofNat 32 x.val :=
    BitVec.eq_of_toNat_eq (by simp)
  exact ⟨by rw [hnode, leafWord, hwide], by rw [hnw]; simp [symEntry]⟩

/-- Settles O34: BUILD commits what its loops leave, which `Merging` describes. -/
theorem buildMergesTheTwoLeastKeys : Obligations.BuildMergesTheTwoLeastKeys := by
  intro s n hlen hn hfits
  rw [← nsymCount_eq_length_leafSymbols] at hlen
  subst hlen
  obtain ⟨hmerging, hnext⟩ := buildTree_merging hn hfits
  refine ⟨(buildTree s).node, (buildTree s).nw, ?_, fun k x hx => hmerging.leaf_of_leafSymbols ?_ hx,
    fun k hk hlt => hmerging.merged k hk (hnext ▸ hlt), fun k hk _ => hmerging.rest k (hnext ▸ hk)⟩
  · rw [exec_build_of_fits hn hfits, installTree, hnext]
    rfl
  · have hk := (List.getElem?_eq_some_iff.mp hx).1
    rw [← nsymCount_eq_length_leafSymbols] at hk
    omega

end Sys2Proof.Machine
end

section
/-! The code table (R150 to R155). GENC's traversal succeeds exactly when no path is longer than the depth allowed, and
then gives each symbol the code of a leaf that holds it. A code read back is the path to its leaf, and no path goes on
beyond a leaf. -/

namespace Sys2Proof.Machine

/-! ## The traversal, node by node (R151) -/

theorem walkCodes_of_leaf {node : Vector Word 511} {i : Nat} (left d v : Nat) (table : Vector CodeEntry 256)
    (h : leafNode node i) :
    walkCodes node left d i v table = .ok (setSymEntry table (symField (nodeEntry node i)) (codeEntry d v)) := by
  unfold walkCodes
  rw [if_pos h]

theorem walkCodes_zero_of_internal {node : Vector Word 511} {i : Nat} (d v : Nat) (table : Vector CodeEntry 256)
    (h : ¬ leafNode node i) : walkCodes node 0 d i v table = .error .codelen := by
  unfold walkCodes
  rw [if_neg h]

/-- At an internal node the traversal fills the table from the left child, then from the right. -/
theorem walkCodes_succ_eq_ok_iff {node : Vector Word 511} {i left d v : Nat} {table table' : Vector CodeEntry 256}
    (h : ¬ leafNode node i) :
    walkCodes node (left + 1) d i v table = .ok table' ↔
      ∃ mid,
        walkCodes node left (d + 1) (childField false (nodeEntry node i)).toNat (2 * v + false.toNat) table = .ok mid ∧
        walkCodes node left (d + 1) (childField true (nodeEntry node i)).toNat (2 * v + true.toNat) mid = .ok table' := by
  simp only [walkCodes, if_neg h, childField, Bool.toNat_false, Bool.toNat_true, Nat.add_zero, if_true,
    Bool.false_eq_true, if_false]
  cases walkCodes node left (d + 1) (leftField (nodeEntry node i)).toNat (2 * v) table <;> simp

/-! ## When the traversal succeeds -/

/-- A traversal that succeeds has met no path longer than the depth allowed. -/
theorem length_le_of_walkCodes {node : Vector Word 511} {left d i v j : Nat} {table table' : Vector CodeEntry 256}
    {p : List Bool} (h : walkCodes node left d i v table = .ok table') (hp : follow node i p = some j) :
    p.length ≤ left := by
  induction left generalizing d i v table table' p with
  | zero =>
    by_cases hl : leafNode node i
    · simp [follow_of_leaf hl hp]
    · simp [walkCodes_zero_of_internal _ _ _ hl] at h
  | succ left ih =>
    by_cases hl : leafNode node i
    · simp [follow_of_leaf hl hp]
    · obtain ⟨mid, hleft, hright⟩ := (walkCodes_succ_eq_ok_iff hl).mp h
      cases p with
      | nil => simp
      | cons b p =>
        rw [follow_cons_of_internal b p hl] at hp
        have hle : p.length ≤ left := by
          cases b
          · exact ih hleft hp
          · exact ih hright hp
        simpa using hle

/-- With no path longer than the depth allowed, the traversal succeeds. -/
theorem exists_walkCodes {node : Vector Word 511} {left i : Nat} (d v : Nat) (table : Vector CodeEntry 256)
    (h : ∀ p j, follow node i p = some j → p.length ≤ left) : ∃ table', walkCodes node left d i v table = .ok table' := by
  induction left generalizing d i v table with
  | zero =>
    have hl : leafNode node i := by
      by_contra hl
      simpa using h [false] _ (follow_cons_of_internal false [] hl)
    exact ⟨_, walkCodes_of_leaf _ _ _ _ hl⟩
  | succ left ih =>
    by_cases hl : leafNode node i
    · exact ⟨_, walkCodes_of_leaf _ _ _ _ hl⟩
    · have hchild (b : Bool) (p : List Bool) (j : Nat)
          (hp : follow node (childField b (nodeEntry node i)).toNat p = some j) : p.length ≤ left := by
        simpa using h (b :: p) j ((follow_cons_of_internal b p hl).trans hp)
      obtain ⟨mid, hleft⟩ := ih (d + 1) (2 * v + false.toNat) table (hchild false)
      obtain ⟨table', hright⟩ := ih (d + 1) (2 * v + true.toNat) mid (hchild true)
      exact ⟨table', (walkCodes_succ_eq_ok_iff hl).mpr ⟨mid, hleft, hright⟩⟩

/-! ## What the traversal writes (R150, R153) -/

/-- The path `p` from node `i` ends at a leaf of symbol `x` (R150). -/
def LeafAt (node : Vector Word 511) (i : Nat) (p : List Bool) (x : Sym) : Prop :=
  ∃ j, follow node i p = some j ∧ leafNode node j ∧ symField (nodeEntry node j) = x

theorem leafAt_nil {node : Vector Word 511} {i : Nat} {x : Sym} :
    LeafAt node i [] x ↔ leafNode node i ∧ symField (nodeEntry node i) = x := by
  simp [LeafAt]

theorem leafAt_iff_of_leaf {node : Vector Word 511} {i : Nat} {p : List Bool} {x : Sym} (h : leafNode node i) :
    LeafAt node i p x ↔ p = [] ∧ symField (nodeEntry node i) = x := by
  cases p with
  | nil => simpa [leafAt_nil] using fun _ => h
  | cons b p => simp [LeafAt, follow_cons_of_leaf b p h]

theorem leafAt_cons {node : Vector Word 511} {i : Nat} {b : Bool} {p : List Bool} {x : Sym} (h : ¬ leafNode node i) :
    LeafAt node i (b :: p) x ↔ LeafAt node (childField b (nodeEntry node i)).toNat p x := by
  simp only [LeafAt, follow_cons_of_internal b p h]

/-- The value of a path that goes on from one of value `v`, as GENC accumulates it (R151). -/
def valueFrom (v : Nat) (path : List Bool) : Nat := path.foldl (fun v b => 2 * v + b.toNat) v

theorem valueFrom_zero (path : List Bool) : valueFrom 0 path = pathValue path := rfl

/-- What the traversal below node `i`, at depth `d` on a path of value `v`, makes of a table: each symbol gets the code of
a leaf below that holds it, and keeps its entry if none does. -/
def CodesBelow (node : Vector Word 511) (i d v : Nat) (table table' : Vector CodeEntry 256) : Prop :=
  ∀ x, (∃ p, LeafAt node i p x ∧ symEntry table' x = codeEntry (d + p.length) (valueFrom v p)) ∨
    ((∀ p, ¬ LeafAt node i p x) ∧ symEntry table' x = symEntry table x)

theorem codesBelow_of_leaf {node : Vector Word 511} {left d i v : Nat} {table table' : Vector CodeEntry 256}
    (hl : leafNode node i) (h : walkCodes node left d i v table = .ok table') : CodesBelow node i d v table table' := by
  obtain rfl := by simpa [walkCodes_of_leaf _ _ _ _ hl] using h
  intro x
  by_cases hx : symField (nodeEntry node i) = x
  · subst hx
    exact .inl ⟨[], leafAt_nil.mpr ⟨hl, rfl⟩, symEntry_setSymEntry_same _ _ _⟩
  · exact .inr ⟨fun p hp => hx ((leafAt_iff_of_leaf hl).mp hp).2, symEntry_setSymEntry_other _ _ hx⟩

/-- The tables of the two children, one after the other, make the table of an internal node. -/
theorem codesBelow_of_children {node : Vector Word 511} {i d v : Nat} {table mid table' : Vector CodeEntry 256}
    (h : ¬ leafNode node i)
    (hleft : CodesBelow node (childField false (nodeEntry node i)).toNat (d + 1) (2 * v + false.toNat) table mid)
    (hright : CodesBelow node (childField true (nodeEntry node i)).toNat (d + 1) (2 * v + true.toNat) mid table') :
    CodesBelow node i d v table table' := by
  have hentry {b : Bool} {p : List Bool} :
      codeEntry (d + 1 + p.length) (valueFrom (2 * v + b.toNat) p)
        = codeEntry (d + (b :: p).length) (valueFrom v (b :: p)) := by
    rw [List.length_cons, Nat.add_assoc, Nat.add_comm 1, valueFrom, valueFrom, List.foldl_cons]
  intro x
  obtain ⟨p, hp, hx⟩ | ⟨hnoneRight, hx⟩ := hright x
  · exact .inl ⟨true :: p, (leafAt_cons h).mpr hp, hx.trans hentry⟩
  obtain ⟨p, hp, hmid⟩ | ⟨hnoneLeft, hmid⟩ := hleft x
  · exact .inl ⟨false :: p, (leafAt_cons h).mpr hp, (hx.trans hmid).trans hentry⟩
  refine .inr ⟨fun p hp => ?_, hx.trans hmid⟩
  match p with
  | [] => exact h (leafAt_nil.mp hp).1
  | false :: p => exact hnoneLeft p ((leafAt_cons h).mp hp)
  | true :: p => exact hnoneRight p ((leafAt_cons h).mp hp)

theorem codesBelow_of_walkCodes {node : Vector Word 511} {left d i v : Nat} {table table' : Vector CodeEntry 256}
    (h : walkCodes node left d i v table = .ok table') : CodesBelow node i d v table table' := by
  induction left generalizing d i v table table' with
  | zero =>
    by_cases hl : leafNode node i
    · exact codesBelow_of_leaf hl h
    · simp [walkCodes_zero_of_internal _ _ _ hl] at h
  | succ left ih =>
    by_cases hl : leafNode node i
    · exact codesBelow_of_leaf hl h
    · obtain ⟨mid, hleft, hright⟩ := (walkCodes_succ_eq_ok_iff hl).mp h
      exact codesBelow_of_children hl (ih hleft) (ih hright)

/-! ## The table of a tree (R151, R152) -/

theorem genCodes_of_leaf {node : Vector Word 511} {root : Nat} (h : leafNode node root) :
    genCodes node root = .ok (setSymEntry clearedTable (symField (nodeEntry node root)) (codeEntry 1 0)) := by
  rw [genCodes, if_pos h]
  rfl

theorem genCodes_of_internal {node : Vector Word 511} {root : Nat} (h : ¬ leafNode node root) :
    genCodes node root = walkCodes node 64 0 root 0 clearedTable := by
  rw [genCodes, if_neg h]
  rfl

theorem symEntry_clearedTable (x : Sym) : symEntry clearedTable x = clearedEntry := symEntry_tabulate _ x

/-- The table of a tree of two or more leaves: a symbol has the code of the path to a leaf that holds it, at depth 64 or
less, or no leaf holds it and its entry is cleared. -/
theorem symEntry_of_genCodes {node : Vector Word 511} {root : Nat} {table : Vector CodeEntry 256}
    (h : genCodes node root = .ok table) (hroot : ¬ leafNode node root) (x : Sym) :
    (∃ p, LeafAt node root p x ∧ p.length ≤ 64 ∧ symEntry table x = codeEntry p.length (pathValue p)) ∨
      ((∀ p, ¬ LeafAt node root p x) ∧ symEntry table x = clearedEntry) := by
  rw [genCodes_of_internal hroot] at h
  obtain ⟨p, hp, hx⟩ | ⟨hnone, hx⟩ := codesBelow_of_walkCodes h x
  · have ⟨j, hj, _⟩ := hp
    exact .inl ⟨p, hp, length_le_of_walkCodes h hj, by rwa [Nat.zero_add, valueFrom_zero] at hx⟩
  · exact .inr ⟨hnone, hx.trans (symEntry_clearedTable x)⟩

/-! ## Codes read back as paths (R150, R153, R155) -/

/-- One more bit goes to the low end of a path's value (R153). -/
theorem pathValue_append_singleton (p : List Bool) (b : Bool) : pathValue (p ++ [b]) = Nat.bit b (pathValue p) := by
  simp [pathValue, Nat.bit_val]

/-- The bits of a path's value from the top are the path (R153). -/
theorem testBit_pathValue {p : List Bool} {j : Nat} (hj : j < p.length) :
    (pathValue p).testBit (p.length - 1 - j) = p[j] := by
  induction p using List.reverseRecOn with
  | nil => simp at hj
  | append_singleton p b ih =>
    rw [pathValue_append_singleton]
    simp only [List.length_append, List.length_singleton] at hj ⊢
    obtain rfl | hj := Nat.eq_or_lt_of_le (Nat.le_of_lt_succ hj)
    · simp
    · rw [List.getElem_append_left hj, ← ih hj, show p.length + 1 - 1 - j = p.length - 1 - j + 1 by omega,
        Nat.testBit_bit_succ]

/-- A code read out of the table is the path it was made of (R150, R153). -/
theorem codeString_codeEntry {p : List Bool} (h : p.length ≤ 64) : codeString (codeEntry p.length (pathValue p)) = p := by
  have hlen : (BitVec.ofNat 7 p.length).toNat = p.length := by
    rw [BitVec.toNat_ofNat]
    omega
  unfold codeString codeEntry
  rw [hlen]
  apply List.ext_getElem
  · simp
  · intro j _ hj
    have hlt : p.length - 1 - j < 64 := by omega
    simp [BitVec.getLsbD_ofNat, hlt, testBit_pathValue hj]

/-- No path goes on beyond a leaf, so a leaf's path that begins with another's has the same symbol. -/
theorem LeafAt.eq_of_isPrefix {node : Vector Word 511} {i : Nat} {p q : List Bool} {x y : Sym} (hp : LeafAt node i p x)
    (hq : LeafAt node i q y) (hpq : p <+: q) : x = y := by
  obtain ⟨r, rfl⟩ := hpq
  obtain ⟨j, hj, hleaf, rfl⟩ := hp
  obtain ⟨k, hk, -, rfl⟩ := hq
  rw [follow_append, hj, Option.bind_some] at hk
  rw [(follow_of_leaf hleaf hk).2]

/-- With two or more leaves, a code of the table is the path to a leaf of its symbol (R150). -/
theorem leafAt_codeString {node : Vector Word 511} {root : Nat} {table : Vector CodeEntry 256} {x : Sym}
    (h : genCodes node root = .ok table) (hroot : ¬ leafNode node root) (hx : (symEntry table x).cv = true) :
    LeafAt node root (codeString (symEntry table x)) x := by
  obtain ⟨p, hp, hlen, hentry⟩ | ⟨-, hentry⟩ := symEntry_of_genCodes h hroot x
  · rwa [hentry, codeString_codeEntry hlen]
  · simp [hentry, clearedEntry] at hx

/-- In a single-leaf tree only the leaf's symbol has a code (R152). -/
theorem eq_symField_of_coded {node : Vector Word 511} {root : Nat} {table : Vector CodeEntry 256} {x : Sym}
    (h : genCodes node root = .ok table) (hroot : leafNode node root) (hx : (symEntry table x).cv = true) :
    symField (nodeEntry node root) = x := by
  rw [genCodes_of_leaf hroot, Except.ok.injEq] at h
  subst h
  by_contra hne
  simp [symEntry_setSymEntry_other _ _ hne, symEntry_clearedTable, clearedEntry] at hx

/-- In the table of a tree a code that another code begins with is of the same symbol. -/
theorem eq_of_code_isPrefix {node : Vector Word 511} {root : Nat} {table : Vector CodeEntry 256} {x y : Sym}
    (h : genCodes node root = .ok table) (hx : (symEntry table x).cv = true) (hy : (symEntry table y).cv = true)
    (hpre : codeString (symEntry table x) <+: codeString (symEntry table y)) : x = y := by
  by_cases hroot : leafNode node root
  · exact (eq_symField_of_coded h hroot hx).symm.trans (eq_symField_of_coded h hroot hy)
  · exact (leafAt_codeString h hroot hx).eq_of_isPrefix (leafAt_codeString h hroot hy) hpre

theorem prefixFree_of_genCodes {node : Vector Word 511} {root : Nat} {table : Vector CodeEntry 256}
    (h : genCodes node root = .ok table) : PrefixFree table := by
  intro x y hxy hx hy hpre
  have hsym : BitVec.ofFin (w := 8) x = BitVec.ofFin y := eq_of_code_isPrefix h hx hy hpre
  exact hxy (BitVec.ofFin.inj hsym)

/-! ## Paths in a well-formed tree (R131) -/

/-- Every node of a well-formed tree has a leaf below it, since no path is as long as the tree has nodes. -/
theorem TreeConditions.exists_leaf {node : Vector Word 511} {r m i : Nat} {p : List Bool} (h : TreeConditions node r m)
    (hp : follow node r p = some i) : ∃ q k, follow node r (p ++ q) = some k ∧ leafNode node k := by
  by_cases hl : leafNode node i
  · exact ⟨[], i, by simpa using hp, hl⟩
  · have hlt := h.length_lt hp
    have hchild : follow node r (p ++ [false]) = some (childField false (nodeEntry node i)).toNat := by
      simp [follow_append, hp, follow_cons_of_internal _ _ hl]
    obtain ⟨q, k, hk, hleaf⟩ := h.exists_leaf hchild
    exact ⟨false :: q, k, by simpa using hk, hleaf⟩
  termination_by m - p.length
  decreasing_by simp; omega

/-- In a well-formed tree one symbol has one path. -/
theorem TreeConditions.leafAt_unique {node : Vector Word 511} {r m : Nat} {p q : List Bool} {x : Sym}
    (h : TreeConditions node r m) (hp : LeafAt node r p x) (hq : LeafAt node r q x) : p = q := by
  obtain ⟨i, hi, hil, hix⟩ := hp
  obtain ⟨j, hj, hjl, hjx⟩ := hq
  obtain rfl := h.distinct p q i j hi hj hil hjl (hix.trans hjx.symm)
  exact h.once p q i hi hj

/-- GENC has a table for a well-formed tree whose leaves lie at depth 64 or less (R151). -/
theorem TreeConditions.exists_genCodes {node : Vector Word 511} {r m : Nat} (h : TreeConditions node r m)
    (hroot : ¬ leafNode node r) (hdepth : ∀ p i, follow node r p = some i → leafNode node i → p.length ≤ 64) :
    ∃ table, genCodes node r = .ok table := by
  rw [genCodes_of_internal hroot]
  refine exists_walkCodes 0 0 clearedTable fun p j hp => ?_
  obtain ⟨q, k, hk, hleaf⟩ := h.exists_leaf hp
  have hlen := hdepth _ k hk hleaf
  rw [List.length_append] at hlen
  omega

/-- A path of more than 64 edges is CODELEN, wherever it leads (R151). -/
theorem genCodes_of_deep {node : Vector Word 511} {root i : Nat} {p : List Bool} (hp : follow node root p = some i)
    (hdeep : 64 < p.length) : genCodes node root = .error .codelen := by
  have hroot : ¬ leafNode node root := fun hl => by simp [follow_of_leaf hl hp] at hdeep
  cases hg : genCodes node root with
  | error c => rw [genCodes_error hg]
  | ok table =>
    rw [genCodes_of_internal hroot] at hg
    exact absurd (length_le_of_walkCodes hg hp) (by omega)

theorem runGenc_of_invalid {s : State} (h : s.tv = false) : runGenc s = .error .notree := by
  simp [runGenc, h]

theorem runGenc_of_error {s : State} {c : ErrCode} (htv : s.tv = true) (h : genCodes s.node s.root.toNat = .error c) :
    runGenc s = .error c := by
  simp [runGenc, htv, h]

/-! ## RDC (R154) -/

/-- The bits of the word RDC puts in DATA2. -/
theorem getLsbD_codeWord (cv : Bool) (clen : BitVec 7) (j : Nat) :
    BitVec.getLsbD (w := 32) (BitVec.ofBool cv ++ 0#24 ++ clen) j =
      if j < 7 then clen.getLsbD j else decide (j = 31) && cv := by
  refine (BitVec.getLsbD_append (x := BitVec.ofBool cv ++ 0#24) (y := clen)).trans ?_
  rw [BitVec.getLsbD_append]
  by_cases h1 : j < 7
  · simp [h1]
  · by_cases h2 : j < 31
    · simp [h1, show j - 7 < 24 by omega, show j ≠ 31 by omega]
    · by_cases h3 : j = 31
      · simp [h3]
      · simp [h1, h3, show ¬ j - 7 < 24 by omega, show j - 7 - 24 ≠ 0 by omega]

/-! ## The statements -/

/-- Settles O43: RDC commits the entry of its symbol; DATA2 is CV, 24 zeros and CLEN put together. -/
theorem rdcReadsOneCode : Obligations.RdcReadsOneCode := by
  intro s a h
  rw [← symEntry_symOf s.codes h]
  refine ⟨_, exec_of_commits ⟨symLegal_of_lt h, rfl, rfl⟩, ?_, ?_, ?_⟩
  · exact getLsbD_codeWord _ _ 31
  · ext j hj
    simp [getLsbD_codeWord, hj]
  · ext j hj
    simp [getLsbD_codeWord, show 7 + j ≠ 31 by omega]

/-- Settles O44: GENC commits the table of the tree, and with CTV = 1 the table is that of the tree (R53 b). -/
theorem codesArePrefixFree : Obligations.CodesArePrefixFree := by
  refine ⟨fun s t _ h hok => ?_, fun s hinv hctv => ?_⟩
  · obtain ⟨s1, hc, rfl⟩ | ⟨s1, x, hc, rfl⟩ | ⟨c, hc, rfl⟩ := exec_cases h
    · obtain ⟨-, table, hg, -, rfl⟩ := hc
      exact prefixFree_of_genCodes hg
    · obtain ⟨-, -, -, hx, -⟩ := hc
      cases hx
    · exact absurd hok hc
  · have htable := hinv.table
    rw [TableIsOfTheTree, if_pos hctv] at htable
    exact prefixFree_of_genCodes htable.2

/-- Settles O42: the run raises NOTREE before it looks at the tree, and CODELEN on a path too long. -/
theorem gencRefusesNoTreeAndDeepLeaves : Obligations.GencRefusesNoTreeAndDeepLeaves := by
  refine fun s => ⟨fun htv => exec_of_error (i := .genc) (runGenc_of_invalid htv), ?_⟩
  rintro htv ⟨p, i, hp, -, hdeep⟩
  exact exec_of_error (i := .genc) (runGenc_of_error htv (genCodes_of_deep hp hdeep))

/-- Settles O41: GENC commits a table that has each symbol's code from a leaf that holds it, and a well-formed tree has
one such path. -/
theorem gencGivesEveryLeafItsPath : Obligations.GencGivesEveryLeafItsPath := by
  intro s htv hwf
  have htree := (wellFormedLoopDecidesTheConditions _ _ _).mp hwf
  refine ⟨fun hroot hdepth => ?_, fun hroot => exec_of_commits ⟨htv, _, genCodes_of_leaf hroot, rfl, rfl⟩⟩
  obtain ⟨table, hg⟩ := htree.exists_genCodes hroot hdepth
  refine ⟨table, exec_of_commits ⟨htv, table, hg, rfl, rfl⟩, fun p i hp hleaf => ?_, fun x hx => ?_⟩
  · have hpath : LeafAt s.node s.root.toNat p (symField (nodeEntry s.node i)) := ⟨i, hp, hleaf, rfl⟩
    obtain ⟨q, hq, -, hentry⟩ | ⟨hnone, -⟩ := symEntry_of_genCodes hg hroot (symField (nodeEntry s.node i))
    · obtain rfl := htree.leafAt_unique hpath hq
      exact hentry
    · exact absurd hpath (hnone p)
  · obtain ⟨p, ⟨i, hp, hleaf, hsym⟩, -⟩ | ⟨-, hentry⟩ := symEntry_of_genCodes hg hroot (BitVec.ofFin x)
    · exact absurd (congrArg BitVec.toNat hsym) (hx p i hp hleaf)
    · exact hentry

end Sys2Proof.Machine
end

section
/-! The stream buffer commands CLRB, SETW, SETR, WRB and RDB (R171 to R175): each success is what the command commits. -/

namespace Sys2Proof.Machine

/-- SETW to a position past the buffer, or before RPTR (R172). -/
theorem runSetw_out_of_range {s : State} (h : s.capBits < s.data0.toNat ∨ s.data0.toNat < s.rptr.toNat) :
    runSetw s = .error .range := by
  simp [runSetw, h]

/-- SETR to a position past WPTR (R173). -/
theorem runSetr_out_of_range {s : State} (h : s.wptr.toNat < s.data0.toNat) : runSetr s = .error .range := if_pos h

/-- Settles O45: the committed buffer repeats the word 0, as often as BUF has words. -/
theorem clrbZeroesTheBuffer : Obligations.ClrbZeroesTheBuffer := fun s =>
  ⟨List.replicate s.buf.length 0, exec_of_commits ⟨rfl, rfl⟩, List.length_replicate, fun _ => List.eq_of_mem_replicate⟩

/-- Settles O46: a position that the buffer has fits in a pointer, so a move within the bounds loses no bit; outside them
the run raises RANGE. SETR's bound is itself a pointer. -/
theorem setwAndSetrMoveThePointers : Obligations.SetwAndSetrMoveThePointers := by
  refine fun s hwf => ⟨fun hcap hlow => ?_, fun h => exec_of_error (runSetw_out_of_range h), fun hhigh => ?_,
    fun h => exec_of_error (runSetr_out_of_range h)⟩
  · exact ⟨_, toNat_setWidth_pointer hwf hcap, exec_of_commits ⟨⟨hcap, hlow⟩, rfl, rfl⟩⟩
  · have hfits : s.data0.toNat < 2 ^ 22 := hhigh.trans_lt s.wptr.isLt
    exact ⟨_, (BitVec.toNat_setWidth 22 s.data0).trans (Nat.mod_eq_of_lt hfits), exec_of_commits ⟨hhigh, rfl, rfl⟩⟩

/-- Settles O47: both commands commit at the word the index names, which BUF has. -/
theorem wrbAndRdbAccessOneBufferWord : Obligations.WrbAndRdbAccessOneBufferWord := fun _ _ h =>
  ⟨exec_of_commits ⟨decide_eq_true h, rfl, rfl⟩, exec_of_commits ⟨_, List.getElem?_eq_getElem h, rfl, rfl⟩⟩

end Sys2Proof.Machine
end

section
/-! The encoder command ENC (R190, R191). What one ENC appends is said once, as `StreamGrows`; what a sequence
of them appends follows by its transitivity. -/

namespace Sys2Proof.Machine

/-! ## Runs of stream bits (R63, R170) -/

@[simp] theorem length_streamBits (buf : List Word) (pos n : Nat) : (streamBits buf pos n).length = n := by
  simp [streamBits]

theorem streamBits_add (buf : List Word) (pos m n : Nat) :
    streamBits buf pos (m + n) = streamBits buf pos m ++ streamBits buf (pos + m) n := by
  simp [streamBits, List.range_add, Function.comp_def, Nat.add_assoc]

/-- A run of stream bits looks at the positions it covers only. -/
theorem streamBits_congr {buf buf' : List Word} {pos n : Nat}
    (h : ∀ i, i < pos + n → streamBit buf' i = streamBit buf i) : streamBits buf' pos n = streamBits buf pos n :=
  List.map_congr_left fun j hj => h (pos + j) (by have := List.mem_range.mp hj; omega)

/-- Bits appended inside the buffer are read back as they were given. -/
theorem streamBits_writeStreamBits (buf : List Word) {pos : Nat} {bits : List Bool}
    (hcap : pos + bits.length ≤ 32 * buf.length) :
    streamBits (writeStreamBits buf pos bits) pos bits.length = bits := by
  apply List.ext_getElem (by simp)
  intro j _ hj
  simp [streamBits, streamBit_writeStreamBits_inside _ _ _ hj hcap]

/-! ## The codes of a reachable table (R151, R153) -/

/-- A code of at most 64 bits lies within CVAL, so the bits that ENC appends are those of the code string. -/
theorem codeBits_eq_codeString {e : CodeEntry} (h : e.clen.toNat ≤ 64) : codeBits e = codeString e := by
  apply List.ext_getElem (by simp [codeString])
  intro j hj _
  simp [codeBits_getElem e hj h, codeString]

theorem clen_codeEntry_le {d : Nat} (v : Nat) (h : d ≤ 64) : (codeEntry d v).clen.toNat ≤ 64 := by
  rw [codeEntry, BitVec.toNat_ofNat]
  exact (Nat.mod_le d _).trans h

/-- GENC gives no code of more than 64 bits (R151). -/
theorem clen_le_of_genCodes {node : Vector Word 511} {root : Nat} {table : Vector CodeEntry 256}
    (h : genCodes node root = .ok table) (x : Sym) : (symEntry table x).clen.toNat ≤ 64 := by
  by_cases hroot : leafNode node root
  · rw [genCodes_of_leaf hroot, Except.ok.injEq] at h
    subst h
    by_cases hx : symField (nodeEntry node root) = x
    · rw [hx, symEntry_setSymEntry_same]
      exact clen_codeEntry_le 0 (by decide)
    · simp [symEntry_setSymEntry_other _ _ hx, symEntry_clearedTable, clearedEntry]
  · obtain ⟨p, -, hlen, hentry⟩ | ⟨-, hentry⟩ := symEntry_of_genCodes h hroot x
    · rw [hentry]
      exact clen_codeEntry_le _ hlen
    · simp [hentry, clearedEntry]

/-- The code table holds no code of more than 64 bits, valid or cleared (R53 b, R49). -/
theorem Inv.clen_le {s : State} (h : Inv s) (x : Sym) : (symEntry s.codes x).clen.toNat ≤ 64 := by
  have htable := h.table
  by_cases hctv : s.ctv = true
  · rw [TableIsOfTheTree, if_pos hctv] at htable
    obtain ⟨-, hgen⟩ := htable
    exact clen_le_of_genCodes hgen x
  · rw [TableIsOfTheTree, if_neg hctv] at htable
    simp [htable, symEntry_clearedTable, clearedEntry]

/-! ## Commands in order -/

/-- Every command keeps the invariants: it completes, so none is pending after it (R53, R85). -/
theorem exec_keeps_inv {i : Instr} {s t : State} (h : Inv s) (he : exec i s = .next t) : Inv t := by
  obtain ⟨htree, htable, hpointers, hwalk, -⟩ := h
  obtain ⟨htree', htable', hwalk'⟩ := exec_keeps_treeInv ⟨htree, htable, hwalk⟩ he
  exact ⟨htree', htable', exec_keeps_pointersInBounds hpointers he, hwalk', fun hb => by simp [exec_busy he] at hb⟩

theorem runAll_cons_eq_some_iff {i : Instr} {is : List Instr} {s t : State} :
    runAll (i :: is) s = some t ↔ ∃ u, exec i s = .next u ∧ u.errcode = .ok ∧ runAll is u = some t := by
  rw [runAll]
  cases hi : exec i s with
  | next u => by_cases hok : u.errcode = .ok <;> simp [hok]
  | fault _ => simp
  | refused _ => simp

/-- A command that is not of the decoder and completes with code 0 has committed its writes, and emits nothing (R85). -/
theorem exists_commits_of_errcode_ok {i : Instr} {s t : State} (hi : i.mnemonic ∉ ["DBIT", "DECS"])
    (h : exec i s = .next t) (hok : t.errcode = .ok) : ∃ s1, Commits i s s1 none ∧ t = succeeded s1 := by
  obtain ⟨s1, hc, ht⟩ | ⟨s1, x, hc, -⟩ | ⟨c, hc, rfl⟩ := exec_cases h
  · exact ⟨s1, hc, ht⟩
  · exact absurd (emits_only_dbit_decs hc) hi
  · exact absurd hok hc

/-! ## What ENC appends (R190, R191) -/

/-- From `s` to `t` the stream grows by `bits` at WPTR, and the bits before them are kept. -/
structure StreamGrows (s t : State) (bits : List Bool) : Prop where
  wptr : t.wptr.toNat = s.wptr.toNat + bits.length
  appended : streamBits t.buf s.wptr.toNat bits.length = bits
  below : ∀ i, i < s.wptr.toNat → streamBit t.buf i = streamBit s.buf i

theorem StreamGrows.refl (s : State) : StreamGrows s s [] := ⟨rfl, rfl, fun _ _ => rfl⟩

theorem StreamGrows.trans {s t u : State} {bits bits' : List Bool} (h : StreamGrows s t bits)
    (h' : StreamGrows t u bits') : StreamGrows s u (bits ++ bits') where
  wptr := by rw [h'.wptr, h.wptr, List.length_append, Nat.add_assoc]
  appended := by
    have hfirst : streamBits u.buf s.wptr.toNat bits.length = bits :=
      (streamBits_congr fun i hi => h'.below i (h.wptr ▸ hi)).trans h.appended
    have hsecond : streamBits u.buf (s.wptr.toNat + bits.length) bits'.length = bits' := h.wptr ▸ h'.appended
    rw [List.length_append, streamBits_add, hfirst, hsecond]
  below i hi := (h'.below i (by rw [h.wptr]; omega)).trans (h.below i hi)

/-- An ENC that succeeds appends its symbol's code, and keeps the code table. -/
theorem enc_streamGrows {s t : State} {x : Sym} (hinv : Inv s) (h : exec (.enc (x.setWidth 16)) s = .next t)
    (hok : t.errcode = .ok) : StreamGrows s t (codeString (symEntry s.codes x)) ∧ t.codes = s.codes := by
  obtain ⟨s1, ⟨-, -, -, hcap, -, rfl⟩, rfl⟩ := exists_commits_of_errcode_ok (by simp [Instr.mnemonic]) h hok
  rw [symOf_setWidth, ← length_codeBits] at hcap
  obtain ⟨hwf, -, -⟩ := hinv.pointers
  have hfits := hcap.trans_lt (capBits_lt_of_wf hwf)
  rw [← codeBits_eq_codeString (hinv.clen_le x)]
  simp only [symOf_setWidth]
  refine ⟨⟨?_, streamBits_writeStreamBits _ hcap, fun i hi => ?_⟩, rfl⟩
  · simp only [succeeded_wptr, ← length_codeBits, BitVec.toNat_ofNat, Nat.mod_eq_of_lt hfits]
  · exact streamBit_writeStreamBits_outside _ _ _ (.inl hi)

/-- A sequence of ENC that all succeed appends the codes of its symbols in order. -/
theorem runAll_enc_streamGrows {xs : List Sym} {s t : State} (hinv : Inv s)
    (h : runAll (xs.map fun x => Instr.enc (x.setWidth 16)) s = some t) :
    StreamGrows s t (xs.map fun x => codeString (symEntry s.codes x)).flatten := by
  induction xs generalizing s with
  | nil =>
    cases h
    exact .refl _
  | cons x xs ih =>
    obtain ⟨u, hu, hok, hrest⟩ := runAll_cons_eq_some_iff.mp h
    obtain ⟨hgrows, hcodes⟩ := enc_streamGrows hinv hu hok
    have htail := ih (exec_keeps_inv hinv hu) hrest
    rw [hcodes] at htail
    exact hgrows.trans htail

/-- ENC of a symbol without a code, or without a valid table (R190). -/
theorem runEnc_of_no_code {s : State} {a : BitVec 16} (ha : a.toNat < 256)
    (h : s.ctv = false ∨ (symEntry s.codes (symOf a)).cv = false) : runEnc a s = .error .nocode := by
  obtain h | h := h <;> simp [runEnc, symLegal_of_lt ha, h]

/-- ENC of a code that does not fit in the bits left (R190). -/
theorem runEnc_of_full {s : State} {a : BitVec 16} (ha : a.toNat < 256) (hctv : s.ctv = true)
    (hcv : (symEntry s.codes (symOf a)).cv = true)
    (h : s.capBits < s.wptr.toNat + (symEntry s.codes (symOf a)).clen.toNat) : runEnc a s = .error .buffull := by
  simp [runEnc, symLegal_of_lt ha, hctv, hcv, h]

/-! ## The statements -/

/-- Settles O48: ENC commits the code's bits appended at WPTR, and appending reaches no other bit; the two failures are
raised by the run's checks. -/
theorem encAppendsTheCode : Obligations.EncAppendsTheCode := by
  intro s a ha
  rw [← symEntry_symOf s.codes ha]
  refine ⟨fun hctv hcv hlen hcap => ?_, fun h => exec_of_error (i := .enc a) (runEnc_of_no_code ha h),
    fun hctv hcv h => exec_of_error (i := .enc a) (runEnc_of_full ha hctv hcv h)⟩
  refine ⟨_, exec_of_commits ⟨symLegal_of_lt ha, hctv, hcv, hcap, rfl, rfl⟩, length_writeStreamBits _ _ _,
    fun j hj => ?_, fun i hi => ?_⟩
  · rw [← length_codeBits] at hj hcap
    rw [streamBit_writeStreamBits_inside _ _ _ hj hcap, codeBits_getElem _ hj hlen]
  · rw [← length_codeBits] at hi
    exact streamBit_writeStreamBits_outside _ _ _ hi

/-- Settles O49: the stream grows by the codes, one ENC after the other. -/
theorem encodedSequenceIsTheCodesInOrder : Obligations.EncodedSequenceIsTheCodesInOrder := by
  intro xs s t hinv h
  obtain ⟨hwptr, happended, hbelow⟩ := runAll_enc_streamGrows hinv h
  refine ⟨by omega, ?_, hbelow⟩
  rw [hwptr, Nat.add_sub_cancel_left]
  exact happended

end Sys2Proof.Machine
end

section
/-! The decoder commands DRST, DBIT, DECS and DEND (R200 to R204). DBIT is one step of the walk; what the loop of DECS
does along a path of stream bits is said once, for a path to an internal node and for a path to a leaf. -/

namespace Sys2Proof.Machine

/-! ## DBIT, DECS and DEND as completions of the walk (R202 to R204) -/

/-- ARG 0 and 1 are the legal operands of kind BIT, and name the bits 0 and 1 (R81). -/
theorem bitLegal_and_bitOf {a : BitVec 16} {b : Bool} (ha : a = if b = true then 1 else 0) :
    bitLegal a = true ∧ bitOf a = b := by
  subst ha
  cases b <;> exact ⟨rfl, rfl⟩

/-- DBIT with a legal bit and a valid tree is one step of the walk. -/
theorem exec_dbit_of_tree {s : State} {a : BitVec 16} {b : Bool} (ha : a = if b = true then 1 else 0)
    (htv : s.tv = true) : exec (.dbit a) s = finish s (walkStep b s) := by
  obtain ⟨hlegal, hbit⟩ := bitLegal_and_bitOf ha
  rw [exec_eq_finish_runOf, runOf, runDbit, hlegal, htv, hbit]
  rfl

theorem runDbit_of_invalid {s : State} {a : BitVec 16} (ha : bitLegal a = true) (htv : s.tv = false) :
    runDbit a s = .error .notree := by
  simp [runDbit, ha, htv]

/-- DECS with a valid tree is the loop over the bits still in the stream. -/
theorem exec_decs_of_tree {s : State} (htv : s.tv = true) :
    exec .decs s = finish s (decodeLoop (s.wptr.toNat - s.rptr.toNat) s) := by
  rw [exec_eq_finish_runOf, runOf, runDecs, htv]
  rfl

theorem runDecs_of_invalid {s : State} (htv : s.tv = false) : runDecs s = .error .notree := by
  simp [runDecs, htv]

theorem runDend_of_invalid {s : State} (htv : s.tv = false) : runDend s = .error .notree := by
  simp [runDend, htv]

/-- DEND in the middle of a code (R204). -/
theorem runDend_of_partial {s : State} (htv : s.tv = true) (hd : s.dnode ≠ s.root) : runDend s = .error .decode := by
  simp [runDend, htv, hd]

/-! ## The loop of DECS along a path (R203) -/

/-- The walk at node `d`, with the bits before position `pos` consumed: all that DECS writes (R203). -/
def walked (s : State) (pos : Nat) (d : BitVec 9) : State := { s with rptr := BitVec.ofNat 22 pos, dnode := d }

@[simp] theorem walked_root (s : State) (pos : Nat) (d : BitVec 9) : (walked s pos d).root = s.root := rfl
@[simp] theorem walked_node (s : State) (pos : Nat) (d : BitVec 9) : (walked s pos d).node = s.node := rfl
@[simp] theorem walked_buf (s : State) (pos : Nat) (d : BitVec 9) : (walked s pos d).buf = s.buf := rfl
@[simp] theorem walked_wptr (s : State) (pos : Nat) (d : BitVec 9) : (walked s pos d).wptr = s.wptr := rfl
@[simp] theorem walked_dnode (s : State) (pos : Nat) (d : BitVec 9) : (walked s pos d).dnode = d := rfl

@[simp] theorem walked_walked (s : State) (pos pos' : Nat) (d d' : BitVec 9) :
    walked (walked s pos d) pos' d' = walked s pos' d' := rfl

@[simp] theorem walked_self (s : State) : walked s s.rptr.toNat s.dnode = s := by
  simp [walked]

/-- A position that the stream has fits in RPTR. -/
theorem toNat_rptr_walked {s : State} {pos : Nat} (d : BitVec 9) (h : pos ≤ s.wptr.toNat) :
    (walked s pos d).rptr.toNat = pos := by
  rw [walked, BitVec.toNat_ofNat]
  omega

/-- RPTR + 1 as a position. -/
theorem rptr_add_one (s : State) : s.rptr + 1 = BitVec.ofNat 22 (s.rptr.toNat + 1) := by
  rw [BitVec.ofNat_add, BitVec.ofNat_toNat, BitVec.setWidth_eq]
  rfl

/-- A bit that leads to an internal node: the walk moves down, and the loop goes on. -/
theorem decodeLoop_succ_to_internal {more : Nat} {s : State} {d : BitVec 9} (hs : ¬ leafNode s.node s.dnode.toNat)
    (hpath : follow s.node s.dnode.toNat [streamBit s.buf s.rptr.toNat] = some d.toNat)
    (hd : ¬ leafNode s.node d.toNat) :
    decodeLoop (more + 1) s = decodeLoop more (walked s (s.rptr.toNat + 1) d) := by
  rw [decodeLoop, walkStep_to_internal hs hpath hd, walked, ← rptr_add_one, BitVec.ofNat_toNat, BitVec.setWidth_eq]
  rfl

/-- A bit that leads to a leaf: its symbol is emitted, the walk is at ROOT again, and the loop is over. -/
theorem decodeLoop_succ_to_leaf {more i : Nat} {s : State} (hs : ¬ leafNode s.node s.dnode.toNat)
    (hpath : follow s.node s.dnode.toNat [streamBit s.buf s.rptr.toNat] = some i) (hi : leafNode s.node i) :
    decodeLoop (more + 1) s = .ok (walked s (s.rptr.toNat + 1) s.root, some (symField (nodeEntry s.node i))) := by
  rw [decodeLoop, walkStep_to_leaf hs hpath hi, walked, ← rptr_add_one]

/-- A bit at a single-leaf walk: 1 is refused, 0 is consumed and emits the leaf's symbol. -/
theorem decodeLoop_succ_at_leaf {more : Nat} {s : State} (hs : leafNode s.node s.dnode.toNat) :
    decodeLoop (more + 1) s = if streamBit s.buf s.rptr.toNat = true then .error .decode
      else .ok ({ s with rptr := s.rptr + 1 }, some (symField (nodeEntry s.node s.dnode.toNat))) := by
  rw [decodeLoop, walkStep_of_leaf _ hs]
  cases streamBit s.buf s.rptr.toNat <;> rfl

/-- A node that a path reaches from a node pointer is named by a node pointer, since both links of a node are. -/
theorem exists_pointer_of_follow {node : Vector Word 511} {d : BitVec 9} {p : List Bool} {i : Nat}
    (h : follow node d.toNat p = some i) : ∃ c : BitVec 9, i = c.toNat := by
  induction p generalizing d with
  | nil => exact ⟨d, by simpa using h.symm⟩
  | cons b p ih =>
    by_cases hl : leafNode node d.toNat
    · simp [follow_cons_of_leaf b p hl] at h
    · rw [follow_cons_of_internal b p hl] at h
      exact ih h

/-- The first bits of a run of stream bits lead to a node, and the last bit leads on from there. -/
theorem exists_follow_last {node : Vector Word 511} {buf : List Word} {d : BitVec 9} {pos n i : Nat}
    (h : follow node d.toNat (streamBits buf pos (n + 1)) = some i) :
    ∃ e : BitVec 9, follow node d.toNat (streamBits buf pos n) = some e.toNat ∧ ¬ leafNode node e.toNat ∧
      follow node e.toNat [streamBit buf (pos + n)] = some i := by
  rw [streamBits_add, follow_append, Option.bind_eq_some_iff] at h
  obtain ⟨j, hj, hlast⟩ := h
  obtain ⟨e, rfl⟩ := exists_pointer_of_follow hj
  refine ⟨e, hj, fun hl => ?_, hlast⟩
  obtain ⟨hnil, -⟩ := follow_of_leaf hl hlast
  simp [streamBits] at hnil

/-- Stream bits that lead to an internal node are consumed, and the loop goes on from there. -/
theorem decodeLoop_to_internal {n more : Nat} {s : State} {d : BitVec 9} (hfits : s.rptr.toNat + n ≤ s.wptr.toNat)
    (hpath : follow s.node s.dnode.toNat (streamBits s.buf s.rptr.toNat n) = some d.toNat)
    (hd : ¬ leafNode s.node d.toNat) :
    decodeLoop (more + n) s = decodeLoop more (walked s (s.rptr.toNat + n) d) := by
  induction n generalizing more d with
  | zero =>
    obtain rfl : s.dnode = d := BitVec.eq_of_toNat_eq (by simpa [streamBits] using hpath)
    rw [Nat.add_zero, Nat.add_zero, walked_self]
  | succ n ih =>
    obtain ⟨e, hfirst, he, hlast⟩ := exists_follow_last hpath
    have hpos := toNat_rptr_walked e (s := s) (pos := s.rptr.toNat + n) (by omega)
    have hstep := decodeLoop_succ_to_internal (more := more) (s := walked s (s.rptr.toNat + n) e) he
      (by rw [hpos]; exact hlast) hd
    rw [Nat.add_comm n 1, ← Nat.add_assoc, ih (by omega) hfirst he, hstep, hpos, walked_walked, Nat.add_assoc,
      Nat.add_comm n 1]

/-- Stream bits that lead from an internal node to a leaf are consumed, and the leaf's symbol is emitted. -/
theorem decodeLoop_to_leaf {n more i : Nat} {s : State} (hfits : s.rptr.toNat + n ≤ s.wptr.toNat)
    (hs : ¬ leafNode s.node s.dnode.toNat)
    (hpath : follow s.node s.dnode.toNat (streamBits s.buf s.rptr.toNat n) = some i) (hi : leafNode s.node i) :
    decodeLoop (more + n) s = .ok (walked s (s.rptr.toNat + n) s.root, some (symField (nodeEntry s.node i))) := by
  cases n with
  | zero =>
    obtain rfl : s.dnode.toNat = i := by simpa [streamBits] using hpath
    exact absurd hi hs
  | succ n =>
    obtain ⟨e, hfirst, he, hlast⟩ := exists_follow_last hpath
    have hpos := toNat_rptr_walked e (s := s) (pos := s.rptr.toNat + n) (by omega)
    have hstep := decodeLoop_succ_to_leaf (more := more) (s := walked s (s.rptr.toNat + n) e) he
      (by rw [hpos]; exact hlast) hi
    rw [Nat.add_comm n 1, ← Nat.add_assoc, decodeLoop_to_internal (by omega) hfirst he, hstep, hpos, walked_walked,
      walked_root, walked_node, Nat.add_assoc, Nat.add_comm n 1]

/-! ## The statements -/

/-- Settles O50: the two successes are what the commands commit, the two failures are raised by DEND's checks. -/
theorem drstRestartsAndDendChecksTheWalk : Obligations.DrstRestartsAndDendChecksTheWalk := fun _ =>
  ⟨exec_of_commits ⟨rfl, rfl⟩, fun htv => exec_of_error (i := .dend) (runDend_of_invalid htv),
    fun htv hd => exec_of_error (i := .dend) (runDend_of_partial htv hd),
    fun htv hd => exec_of_commits ⟨htv, hd, rfl, rfl⟩⟩

/-- Settles O51: with a valid tree DBIT completes one step of the walk, in its three cases. -/
theorem dbitAppliesOneBit : Obligations.DbitAppliesOneBit := by
  intro s b a ha
  obtain ⟨hlegal, -⟩ := bitLegal_and_bitOf ha
  refine ⟨fun htv => exec_of_error (i := .dbit a) (runDbit_of_invalid hlegal htv), fun htv hl => ?_,
    fun htv hl c hc => ⟨fun hk => ?_, fun hk => ?_⟩⟩ <;> rw [exec_dbit_of_tree ha htv]
  · rw [walkStep_of_leaf b hl]
    cases b
    · exact finish_emit s s _
    · exact finish_error s (by decide)
  · rw [walkStep_to_leaf hl hc hk]
    exact finish_emit _ _ _
  · rw [walkStep_to_internal hl hc hk]
    exact finish_quiet _ _

/-- Settles O52: with a valid tree DECS completes its loop. At a single leaf one bit decides; else the bits are consumed
along their path, to a leaf or to the end of the stream. -/
theorem decsDecodesOneSymbol : Obligations.DecsDecodesOneSymbol := by
  intro s hle
  refine ⟨fun htv => exec_of_error (i := .decs) (runDecs_of_invalid htv), fun htv hempty => ?_, fun htv hl hlt => ?_,
    fun htv hl n i hfits hpath hi => ?_, fun htv i hi hpath => ?_⟩ <;> rw [exec_decs_of_tree htv]
  · rw [hempty, Nat.sub_self]
    exact finish_quiet s s
  · obtain ⟨more, hmore⟩ := Nat.exists_eq_add_one.mpr (Nat.sub_pos_of_lt hlt)
    rw [hmore, decodeLoop_succ_at_leaf hl]
    cases streamBit s.buf s.rptr.toNat
    · exact finish_emit _ _ _
    · exact finish_error s (by decide)
  · obtain ⟨more, hmore⟩ := Nat.exists_eq_add_of_le' (show n ≤ s.wptr.toNat - s.rptr.toNat by omega)
    rw [hmore, decodeLoop_to_leaf hfits hl hpath hi]
    exact finish_emit _ _ _
  · obtain ⟨d, rfl⟩ := exists_pointer_of_follow hpath
    have hend : walked s s.wptr.toNat d = { s with rptr := s.wptr, dnode := BitVec.ofNat 9 d.toNat } := by simp [walked]
    rw [← hend, ← Nat.zero_add (_ - _), decodeLoop_to_internal (by omega) hpath hi, Nat.add_sub_cancel' hle]
    exact finish_quiet _ _

end Sys2Proof.Machine
end

section
/-! The round trip (R205, R206). Between ENC and DECS the stream is a queue of symbols, `StreamHolds`: ENC appends one at
the end, DECS takes the first, and the round trip of a text follows by induction over it. -/

namespace Sys2Proof.Machine

/-! ## DECS on the code of a symbol (R203, R206) -/

/-- The single leaf of a tree has the code "0" (R152). -/
theorem codeString_of_single_leaf {node : Vector Word 511} {root : Nat} {table : Vector CodeEntry 256}
    (h : genCodes node root = .ok table) (hroot : leafNode node root) :
    codeString (symEntry table (symField (nodeEntry node root))) = [false] := by
  rw [genCodes_of_leaf hroot, Except.ok.injEq] at h
  rw [← h, symEntry_setSymEntry_same]
  exact codeString_codeEntry (p := [false]) (by decide)

/-- DECS at ROOT, with the code of a symbol next in the stream, consumes that code and emits the symbol. -/
theorem exec_decs_of_code {s : State} {x : Sym} (htv : s.tv = true) (hgen : genCodes s.node s.root.toNat = .ok s.codes)
    (hd : s.dnode = s.root) (hx : (symEntry s.codes x).cv = true)
    (hfits : s.rptr.toNat + (codeString (symEntry s.codes x)).length ≤ s.wptr.toNat)
    (hbits : streamBits s.buf s.rptr.toNat (codeString (symEntry s.codes x)).length = codeString (symEntry s.codes x)) :
    exec .decs s =
      .next (emitted x (walked s (s.rptr.toNat + (codeString (symEntry s.codes x)).length) s.root)) := by
  obtain ⟨-, -, hsingle, hwhole, -⟩ := decsDecodesOneSymbol s (by omega)
  rw [hd] at hsingle hwhole
  by_cases hroot : leafNode s.node s.root.toNat
  · obtain rfl := eq_symField_of_coded hgen hroot hx
    rw [codeString_of_single_leaf hgen hroot] at hfits hbits ⊢
    have hbit : streamBit s.buf s.rptr.toNat = false := by simpa [streamBits] using hbits
    rw [hsingle htv hroot hfits, hbit, walked, List.length_singleton, ← rptr_add_one, ← hd]
    rfl
  · obtain ⟨i, hpath, hi, hsym⟩ := leafAt_codeString hgen hroot hx
    rw [hwhole htv hroot _ i hfits (by rw [hbits]; exact hpath) hi, hsym]
    rfl

/-! ## The stream as a queue of symbols (R206) -/

/-- A run of stream bits in two parts. -/
theorem streamBits_eq_append {buf : List Word} {pos n : Nat} {bits bits' : List Bool}
    (h : streamBits buf pos n = bits ++ bits') :
    n = bits.length + bits'.length ∧ streamBits buf pos bits.length = bits ∧
      streamBits buf (pos + bits.length) bits'.length = bits' := by
  obtain rfl : n = bits.length + bits'.length := by simpa using congrArg List.length h
  rw [streamBits_add] at h
  exact ⟨rfl, List.append_inj h (length_streamBits _ _ _)⟩

/-- What lies between a position and WPTR before the stream grows, and the bits it grows by, lie there after it. -/
theorem StreamGrows.streamBits_from {s t : State} {bits : List Bool} {pos : Nat} (h : StreamGrows s t bits)
    (hpos : pos ≤ s.wptr.toNat) :
    streamBits t.buf pos (t.wptr.toNat - pos) = streamBits s.buf pos (s.wptr.toNat - pos) ++ bits := by
  have hkept : streamBits t.buf pos (s.wptr.toNat - pos) = streamBits s.buf pos (s.wptr.toNat - pos) :=
    streamBits_congr fun i hi => h.below i (by omega)
  rw [h.wptr, Nat.sub_add_comm hpos, streamBits_add, hkept, Nat.add_sub_cancel' hpos, h.appended]

/-- The stream from RPTR to WPTR is the codes of the symbols `xs`, in a state that meets the invariants, with a valid
code table and the walk at ROOT. -/
structure StreamHolds (s : State) (xs : List Sym) : Prop where
  inv : Inv s
  ctv : s.ctv = true
  walk : s.dnode = s.root
  coded : ∀ x ∈ xs, (symEntry s.codes x).cv = true
  bits : streamBits s.buf s.rptr.toNat (s.wptr.toNat - s.rptr.toNat) =
    (xs.map fun x => codeString (symEntry s.codes x)).flatten

theorem StreamHolds.table {s : State} {xs : List Sym} (h : StreamHolds s xs) :
    s.tv = true ∧ genCodes s.node s.root.toNat = .ok s.codes := by
  have htable := h.inv.table
  rwa [TableIsOfTheTree, if_pos h.ctv] at htable

/-- An empty stream holds no symbol. -/
theorem StreamHolds.of_empty {s : State} (hinv : Inv s) (hctv : s.ctv = true) (hd : s.dnode = s.root)
    (hempty : s.rptr = s.wptr) : StreamHolds s [] where
  inv := hinv
  ctv := hctv
  walk := hd
  coded := by simp
  bits := by simp [hempty, streamBits]

/-- A stream that holds no symbol is empty. -/
theorem StreamHolds.empty {s : State} (h : StreamHolds s []) : s.rptr = s.wptr := by
  have hlen := congrArg List.length h.bits
  obtain ⟨-, hle, -⟩ := h.inv.pointers
  rw [length_streamBits] at hlen
  exact BitVec.eq_of_toNat_eq (by simp at hlen; omega)

/-- ENC appends a symbol, and leaves RPTR (R190). -/
theorem StreamHolds.enc {s t : State} {ys : List Sym} {x : Sym} (h : StreamHolds s ys)
    (he : exec (.enc (x.setWidth 16)) s = .next t) (hok : t.errcode = .ok) :
    StreamHolds t (ys ++ [x]) ∧ t.rptr = s.rptr := by
  obtain ⟨-, hle, -⟩ := h.inv.pointers
  obtain ⟨hgrows, -⟩ := enc_streamGrows h.inv he hok
  have hbits := (hgrows.streamBits_from hle).trans (congrArg (· ++ _) h.bits)
  have hinv := exec_keeps_inv h.inv he
  obtain ⟨s1, ⟨-, -, hx, -, -, rfl⟩, rfl⟩ := exists_commits_of_errcode_ok (by simp [Instr.mnemonic]) he hok
  rw [symOf_setWidth] at hx
  refine ⟨⟨hinv, h.ctv, h.walk, fun y hy => ?_, hbits.trans (by simp)⟩, rfl⟩
  obtain hy | rfl := by simpa using hy
  · exact h.coded y hy
  · exact hx

/-- A sequence of ENC that all succeed appends its symbols in order, and leaves RPTR (R191). -/
theorem StreamHolds.runAll_enc {s t : State} {xs ys : List Sym} (h : StreamHolds s ys)
    (hrun : runAll (xs.map fun x => Instr.enc (x.setWidth 16)) s = some t) :
    StreamHolds t (ys ++ xs) ∧ t.rptr = s.rptr := by
  induction xs generalizing s ys with
  | nil =>
    cases hrun
    exact ⟨by simpa using h, rfl⟩
  | cons x xs ih =>
    obtain ⟨u, hu, hok, hrest⟩ := runAll_cons_eq_some_iff.mp hrun
    obtain ⟨hheld, hrptr⟩ := h.enc hu hok
    obtain ⟨hall, hrptr'⟩ := ih hheld hrest
    exact ⟨by simpa using hall, hrptr'.trans hrptr⟩

/-- DECS takes the first symbol, and emits it (R203). -/
theorem StreamHolds.decs {s : State} {x : Sym} {xs : List Sym} (h : StreamHolds s (x :: xs)) :
    ∃ t, exec .decs s = .next (emitted x t) ∧ StreamHolds (emitted x t) xs := by
  obtain ⟨htv, hgen⟩ := h.table
  have hbits := h.bits
  rw [List.map_cons, List.flatten_cons] at hbits
  obtain ⟨hlen, hfirst, hrest⟩ := streamBits_eq_append hbits
  obtain ⟨-, hle, -⟩ := h.inv.pointers
  have hfits : s.rptr.toNat + (codeString (symEntry s.codes x)).length ≤ s.wptr.toNat := by omega
  have hdecs := exec_decs_of_code htv hgen h.walk (h.coded x List.mem_cons_self) hfits hfirst
  refine ⟨_, hdecs, exec_keeps_inv h.inv hdecs, h.ctv, rfl, fun y hy => h.coded y (List.mem_cons_of_mem x hy), ?_⟩
  simp only [emitted_rptr, emitted_wptr, emitted_buf, emitted_codes, toNat_rptr_walked _ hfits, walked_buf, walked_wptr]
  rw [← Nat.sub_sub, hlen, Nat.add_sub_cancel_left]
  exact hrest

/-- One DECS per symbol takes them all, in order. -/
theorem StreamHolds.decode_all {s : State} {xs : List Sym} (h : StreamHolds s xs) :
    ∃ u, decodeSymbols xs.length s = some (xs.map fun x => x.setWidth 32, u) ∧ StreamHolds u [] := by
  induction xs generalizing s with
  | nil => exact ⟨s, rfl, h⟩
  | cons x xs ih =>
    obtain ⟨t, hdecs, hheld⟩ := h.decs
    obtain ⟨u, hu, hnone⟩ := ih hheld
    refine ⟨u, ?_, hnone⟩
    simp [decodeSymbols, hdecs, hu]

/-- DEND succeeds between two symbols (R204). -/
theorem StreamHolds.dend {s : State} {xs : List Sym} (h : StreamHolds s xs) : exec .dend s = .next (succeeded s) := by
  obtain ⟨htv, -⟩ := h.table
  exact exec_of_commits ⟨htv, h.walk, rfl, rfl⟩

/-! ## Programs in parts (R205) -/

/-- A program in two parts succeeds when the parts do, one after the other. -/
theorem runAll_append_eq_some_iff {is js : List Instr} {s t : State} :
    runAll (is ++ js) s = some t ↔ ∃ u, runAll is s = some u ∧ runAll js u = some t := by
  induction is generalizing s with
  | nil => simp [runAll]
  | cons i is ih =>
    simp only [List.cons_append, runAll_cons_eq_some_iff, ih]
    exact ⟨fun ⟨v, hi, hok, u, hu, ht⟩ => ⟨u, ⟨v, hi, hok, hu⟩, ht⟩,
      fun ⟨u, ⟨v, hi, hok, hu⟩, ht⟩ => ⟨v, hi, hok, u, hu, ht⟩⟩

theorem runAll_keeps_inv {is : List Instr} {s t : State} (hinv : Inv s) (h : runAll is s = some t) : Inv t := by
  induction is generalizing s with
  | nil =>
    cases h
    exact hinv
  | cons i is ih =>
    obtain ⟨u, hu, -, hrest⟩ := runAll_cons_eq_some_iff.mp h
    exact ih (exec_keeps_inv hinv hu) hrest

/-- BUILD, GENC and CLRB prepare an empty stream at position 0, whatever was before (R205). -/
theorem StreamHolds.of_prepared {s t : State} (hinv : Inv s) (h : runAll [.build, .genc, .clrb] s = some t) :
    StreamHolds t [] ∧ t.rptr = 0 := by
  have hinv' := runAll_keeps_inv hinv h
  obtain ⟨t1, hbuild, hok1, h⟩ := runAll_cons_eq_some_iff.mp h
  obtain ⟨t2, hgenc, hok2, h⟩ := runAll_cons_eq_some_iff.mp h
  obtain ⟨t3, hclrb, hok3, h⟩ := runAll_cons_eq_some_iff.mp h
  cases h
  obtain ⟨_, ⟨-, -, -, rfl⟩, rfl⟩ := exists_commits_of_errcode_ok (by simp [Instr.mnemonic]) hbuild hok1
  obtain ⟨_, ⟨-, table, -, -, rfl⟩, rfl⟩ := exists_commits_of_errcode_ok (by simp [Instr.mnemonic]) hgenc hok2
  obtain ⟨_, ⟨-, rfl⟩, rfl⟩ := exists_commits_of_errcode_ok (by simp [Instr.mnemonic]) hclrb hok3
  exact ⟨.of_empty hinv' rfl rfl rfl, rfl⟩

/-- With RPTR = 0 and DATA0 = 0, SETR and DRST succeed and keep what the stream holds: RPTR and the walk are there
already (R201, R173). -/
theorem StreamHolds.runAll_restart {s : State} {xs : List Sym} (h : StreamHolds s xs) (hrptr : s.rptr = 0) :
    ∃ t, runAll [.setr, .drst] { s with data0 := 0 } = some t ∧ StreamHolds t xs := by
  obtain ⟨htree, htable, hpointers, hwalk, hpending⟩ := h.inv
  have hinv : Inv { s with data0 := 0 } := ⟨htree, htable, hpointers, hwalk, hpending⟩
  have hsetr : exec .setr { s with data0 := 0 } = .next (succeeded { s with data0 := 0, rptr := 0 }) :=
    exec_of_commits ⟨Nat.zero_le _, rfl, rfl⟩
  have hdrst : exec .drst (succeeded { s with data0 := 0, rptr := 0 }) =
      .next (succeeded { succeeded { s with data0 := 0, rptr := 0 } with dnode := s.root }) :=
    exec_of_commits ⟨rfl, rfl⟩
  refine ⟨_, runAll_cons_eq_some_iff.mpr ⟨_, hsetr, rfl, runAll_cons_eq_some_iff.mpr ⟨_, hdrst, rfl, rfl⟩⟩,
    exec_keeps_inv (exec_keeps_inv hinv hsetr) hdrst, h.ctv, rfl, h.coded, ?_⟩
  have hbits := h.bits
  rw [hrptr] at hbits
  exact hbits

/-! ## The statements -/

/-- Settles O53: ENC puts the symbol into the empty stream, DECS takes it out. -/
theorem encodedSymbolDecodesToItself : Obligations.EncodedSymbolDecodesToItself := by
  intro s s1 x hinv hctv hd hempty he hok
  obtain ⟨hheld, -⟩ := (StreamHolds.of_empty hinv hctv hd hempty).enc he hok
  obtain ⟨t, hdecs, hnone⟩ := hheld.decs
  exact ⟨_, hdecs, rfl, rfl, rfl, hnone.empty, hnone.walk⟩

/-- Settles O54: the commands put the symbols into the empty stream, as many DECS take them out. -/
theorem encodedSequenceDecodesToItself : Obligations.EncodedSequenceDecodesToItself := by
  intro xs s t hinv hctv hd hempty hrun
  obtain ⟨hheld, -⟩ := (StreamHolds.of_empty hinv hctv hd hempty).runAll_enc hrun
  obtain ⟨u, hu, hnone⟩ := hheld.decode_all
  exact ⟨u, hu, hnone.empty, _, hnone.dend, rfl⟩

/-- Settles O55: the encoding half puts the text into an empty stream at position 0, the restart finds it there, and as
many DECS take it out. -/
theorem textRoundTripsWhenItsEncodingSucceeds : Obligations.TextRoundTripsWhenItsEncodingSucceeds := by
  intro xs s t hinv hrun
  obtain ⟨w, hprepare, henc⟩ := runAll_append_eq_some_iff.mp hrun
  obtain ⟨v, hcount, hprepare⟩ := runAll_append_eq_some_iff.mp hprepare
  obtain ⟨hnone, hzero⟩ := StreamHolds.of_prepared (runAll_keeps_inv hinv hcount) hprepare
  obtain ⟨hheld, hrptr⟩ := hnone.runAll_enc henc
  obtain ⟨a, ha, hheld'⟩ := hheld.runAll_restart (hrptr.trans hzero)
  obtain ⟨u, hu, hdone⟩ := hheld'.decode_all
  exact ⟨a, u, _, ha, hu, hdone.empty, hdone.dend, rfl⟩

end Sys2Proof.Machine
end

section
/-! The system command NOP (R220). -/

namespace Sys2Proof.Machine

/-- Settles O56: NOP has no guard to fail, and commits the state it starts from. -/
theorem nopChangesOnlyTheCompletionFields : Obligations.NopChangesOnlyTheCompletionFields := by
  intro s
  have hcommits : Commits .nop s s none := ⟨rfl, rfl⟩
  exact exec_of_commits hcommits

end Sys2Proof.Machine
end

section
/-! Hardware reset and the soft reset INIT (R260 to R263): the reset event, the reset values as the host reads them, and
what INIT keeps. -/

namespace Sys2Proof.Machine

/-! ## The reset event (R260) -/

/-- Settles O7: the event is `hardwareReset`, in the state whose next event is taken out. -/
theorem resetEventGivesTheResetState : Obligations.ResetEventGivesTheResetState := by
  intro s rest he
  rw [step_of_events_cons he]
  rfl

/-! ## The reset values (R261) -/

@[simp] theorem length_powerOn_buf (n epoch : Nat) : (powerOn n epoch).buf.length = n := by simp [powerOn]

@[simp] theorem capBits_powerOn (n epoch : Nat) : (powerOn n epoch).capBits = 32 * n := by
  simp [State.capBits, State.bufWords]

theorem powerOn_freq (n epoch : Nat) (x : Fin 256) : (powerOn n epoch).freq[x.val] = 0 :=
  getElem_tabulate 256 _ x x.isLt

theorem powerOn_codes (n epoch : Nat) (x : Fin 256) : (powerOn n epoch).codes[x.val] = clearedEntry :=
  getElem_tabulate 256 _ x x.isLt

theorem bempty_powerOn (n epoch : Nat) : bempty (powerOn n epoch) = true := rfl

theorem wroot_powerOn (n epoch : Nat) : wroot (powerOn n epoch) = true := rfl

/-- BEMPTY and WROOT are the only bits of STATUS set after reset. -/
theorem statusWord_powerOn (n epoch : Nat) : statusWord (powerOn n epoch) = 0x000000C0 := by
  rw [statusWord, bempty_powerOn, wroot_powerOn]
  simp [powerOn, errNumber]

/-- Neither DONE nor ERR is set. -/
theorem irq_powerOn (n epoch : Nat) : irq (powerOn n epoch) = false := by simp [irq, powerOn]

/-- CAP is the size of the buffer. -/
theorem readReg_cap_powerOn (n epoch : Nat) : readReg .cap (powerOn n epoch) = BitVec.ofNat 32 (32 * n) := by
  rw [readReg, capBits_powerOn]

/-- NSYM counts the non-zero entries of a table of zeros. -/
theorem readReg_nsym_powerOn (n epoch : Nat) : readReg .nsym (powerOn n epoch) = 0 := by
  rw [readReg, nsymCount_eq_zero (powerOn_freq n epoch)]
  rfl

/-- Settles O8: every stored register is set to its value by `powerOn`; STATUS, CAP, NSYM and the arrays have a lemma
each. -/
theorem resetValues : Obligations.ResetValues := by
  refine ⟨rfl, fun n epoch s hs => ?_⟩
  subst hs
  exact ⟨rfl, rfl, rfl, rfl, rfl, rfl, rfl, rfl, rfl, bempty_powerOn n epoch, wroot_powerOn n epoch,
    statusWord_powerOn n epoch, rfl, rfl, rfl, rfl, rfl, rfl, rfl, rfl, readReg_cap_powerOn n epoch,
    length_powerOn_buf n epoch, rfl, readReg_nsym_powerOn n epoch, rfl, powerOn_freq n epoch, powerOn_codes n epoch,
    irq_powerOn n epoch⟩

/-! ## INIT (R263) -/

/-- Settles O57: INIT has no guard to fail, and what it commits differs from the stated state only in fields that
completion writes. -/
theorem initGivesTheResetStateExceptTheKeptParts : Obligations.InitGivesTheResetStateExceptTheKeptParts := by
  intro s
  have hcommits : Commits .init s _ none := ⟨rfl, rfl⟩
  rw [exec_of_commits hcommits]
  rfl

end Sys2Proof.Machine
end

section
/-! The error codes a command can complete with (R230), and the interrupt line (R236, R237). -/

namespace Sys2Proof.Machine

/-! ## The codes (R230) -/

theorem ok_mem_possibleCodes (i : Instr) : .ok ∈ possibleCodes i := by
  cases i <;> exact List.mem_cons_self

theorem errNumber_le (c : ErrCode) : (errNumber c).toNat ≤ 10 := by
  cases c <;> decide

/-- Settles O26: a success has code 0, which every command lists; a failure has one of the other codes listed, by
`runOf_failsOnlyWith`. -/
theorem commandsRaiseOnlyTheirErrors : Obligations.CommandsRaiseOnlyTheirErrors := by
  refine fun i s t h => ⟨?_, errNumber_le t.errcode⟩
  rw [exec_eq_finish_runOf] at h
  obtain ⟨s1, -, rfl⟩ | ⟨s1, x, -, rfl⟩ | ⟨c, hr, rfl⟩ := finish_cases h
  · exact ok_mem_possibleCodes i
  · exact ok_mem_possibleCodes i
  · have hmem : c ∈ (possibleCodes i).tail := by simpa [hr] using runOf_failsOnlyWith i s
    exact List.mem_of_mem_tail hmem

/-! ## The interrupt line (R236, R237) -/

/-- The line is high while one of the two interrupts is pending (R236). -/
theorem irq_iff (s : State) : irq s = true ↔ DonePending s ∨ ErrPending s := by
  simp [irq, DonePending, ErrPending, and_comm]

/-- Without DONE the completion interrupt is not pending, and so for the other three bits of R236. -/
theorem not_donePending_of_done {s : State} (h : s.done = false) : ¬ DonePending s :=
  fun ⟨hdone, _⟩ => Bool.eq_false_iff.mp h hdone

theorem not_errPending_of_err {s : State} (h : s.err = false) : ¬ ErrPending s :=
  fun ⟨herr, _⟩ => Bool.eq_false_iff.mp h herr

theorem not_donePending_of_ie {s : State} (h : s.ie.getLsbD 0 = false) : ¬ DonePending s :=
  fun ⟨_, hie⟩ => Bool.eq_false_iff.mp h hie

theorem not_errPending_of_ie {s : State} (h : s.ie.getLsbD 1 = false) : ¬ ErrPending s :=
  fun ⟨_, hie⟩ => Bool.eq_false_iff.mp h hie

/-- Settles O17: the state after each event of R237 has the interrupt's STATUS bit or its IE bit 0. -/
theorem interruptLineFollowsStatusAndIe : Obligations.InterruptLineFollowsStatusAndIe := by
  refine ⟨irq_iff, fun s t v rest hstep => ?_⟩
  obtain ⟨hstatus, hie⟩ := statusAndIeWrites s v rest
  refine ⟨fun he => ?_, fun he => ?_, fun he hb => ?_, fun he => ?_⟩
  · obtain rfl := Host.Outcome.next.inj ((hstatus he).symm.trans hstep)
    exact ⟨fun hv => not_donePending_of_done (if_pos hv), fun hv => not_errPending_of_err (if_pos hv)⟩
  · obtain rfl := Host.Outcome.next.inj ((hie he).symm.trans hstep)
    exact ⟨fun hv => not_donePending_of_ie (by simpa using hv), fun hv => not_errPending_of_ie (by simpa using hv)⟩
  · rw [cmdWriteIsAcceptedOrDropped s v rest he, if_neg (by simp [hb])] at hstep
    obtain rfl := Host.Outcome.next.inj hstep
    exact not_donePending_of_done rfl
  · obtain rfl := Host.Outcome.next.inj ((resetEventGivesTheResetState s rest he).symm.trans hstep)
    exact ⟨not_donePending_of_done rfl, not_errPending_of_err rfl⟩

end Sys2Proof.Machine
end
